-- ==== Sys2Proof/Word.lean ====
section
/-! DEFINITION. The words of the DH220: bytes, keys, and the indices of sectors and guard slots. -/

namespace Sys2Proof

/-- A byte of the register window, of a frame, or of the flash array. -/
abbrev Byte := BitVec 8

/-- A 16-bit key (R45). -/
abbrev Key := BitVec 16

/-- A sector index, 0–31 (section 1.1 of the Record Log). -/
abbrev SectorIx := Fin 32

/-- A guard slot index, 0–7 (R138). -/
abbrev GuardIx := Fin 8

end Sys2Proof
end

