-- ==== Sys2Proof/Config.lean ====
section
/-! DEFINITION. The constants the spec fixes for every DH220, and the free values the spec leaves open. -/

namespace Sys2Proof.Config

/-- Sectors of the array (section 1.1). -/
def sectorCount : Nat := 32

/-- Lines of a sector (section 1.1). -/
def linesPerSector : Nat := 256

/-- Bytes of a line (section 1.1). -/
def lineBytes : Nat := 16

/-- First line of the record area (R1). -/
def firstRecordLine : Nat := 2

/-- Lines of the record area (R1). -/
def recordAreaLines : Nat := 254

/-- What each byte of a blank line reads (R2). -/
def blankByte : Byte := 0xFF#8

/-- The endurance limit in erases (R1, R39). -/
def enduranceLimit : Nat := 100000

/-- Lines that commits may not enter (section 1.6.1, R22). -/
def commitReserve : Nat := 272

/-- Lines a commit reservation asks for beyond its records (R22). -/
def commitMargin : Nat := 32

/-- Lines a pass asks for beyond the victim's live lines (R22). -/
def passMargin : Nat := 18

/-- Entries of the Key Directory (R44). -/
def directoryCapacity : Nat := 1024

/-- Operations of the staging list (R63). -/
def stagingOps : Nat := 16

/-- Payload bytes of the staging list (R63). -/
def stagingBytes : Nat := 2048

/-- The longest payload (R5). -/
def maxLength : Nat := 242

/-- The input buffer's size (R176). -/
def inputBufferSize : Nat := 256

/-- Places of the command queue (R149). -/
def commandQueueSize : Nat := 4

/-- Places of the completion queue (R149). -/
def completionQueueSize : Nat := 8

/-- FFFFFFFFh: no sequence block may reach past it (R10). -/
def maxSequenceCounter : Nat := 0xFFFFFFFF

/-- The highest generation (R13). -/
def maxGeneration : Nat := 65535

/-- The aging count at which slot C is granted (R108). -/
def agingLimit : Nat := 8

/-- The fewest usable sectors of a writable store (R42), and the fewest BLANK sectors of a format (R136). -/
def minUsableSectors : Nat := 3

/-- The settings key FF01h (R45). -/
def settingsKey : Key := 0xFF01#16

/-- The format mark C47E19A3h of an erase stamp (R182). -/
def formatMark : Nat := 0xC47E19A3

/-- How many internal happenings of one command the model follows before it stops (log 11). -/
def cascadeBound : Nat := 400

/-- FREE VALUE: what the n-th read of a line of undefined bytes returns (R103, R116; log 3). -/
opaque freeLine : Nat → BitVec 128

/-- FREE VALUE: whether, at the n-th unit's end with a waiter, the engine's search comes before the waiting
request. R98 allows either order (log 9). -/
opaque searchFirst : Nat → Bool

end Sys2Proof.Config
end

