-- ==== Sys2Proof/Syntax.lean ====
section
/-! DEFINITION. The commands of the DH220 block: one constructor per row of spec/opcode_table.json. -/

namespace Sys2Proof

/-- The verify result of a PROGRAM or an ERASE (R103). It comes from the array (log 4). -/
inductive Verify where
  | passed
  | failed
  deriving DecidableEq, Repr

/-- How the array returned the lines of a READ (log 4). -/
inductive ReadOutcome where
  /-- The bytes the array holds; lines of undefined bytes read as free values. -/
  | stored
  /-- A fault of the array (R51, R91): these bytes come in place of the first bytes read. -/
  | altered (bytes : List Byte)
  deriving DecidableEq, Repr

/-- The first complete byte of a frame, its control byte (R172), and whether that frame was open across a reset: one
that has acted, or ended, since the falling edge of CS# that began it (R180; log 6). -/
structure FirstByte where
  byte : Byte
  acrossReset : Bool
  deriving DecidableEq, Repr

/-- The commands the block takes from outside. -/
inductive Instr where
  | powerOnReset
  | resetAsserted
  | resetReleased
  /-- A write frame byte of any value that completes at 3Fh. -/
  | softReset (b : Byte)
  | pfailAsserted
  | pfailDeasserted
  /-- A write frame byte at a location without a row of its own, or one with bit 0 clear at 3Fh. -/
  | registerWrite (b : Byte)
  /-- A write frame byte at 06h or 07h. -/
  | faults (b : Byte)
  /-- A write frame byte at 15h. -/
  | cqPop (b : Byte)
  /-- A write frame byte at 20h. -/
  | dataIn (b : Byte)
  /-- A write frame byte at 27h. -/
  | inClear (b : Byte)
  /-- A complete data byte of a read frame (log 20). -/
  | dataOut
  | get
  | next
  | put
  | delete
  | discard
  | commit
  | setting
  | saveSettings
  | guardSet
  | guardFix
  | sectorQuery
  | reclaim
  | mount
  | format
  | unknownCommand
  | getReadEnd (r : ReadOutcome)
  | reclaimReadEnd (r : ReadOutcome)
  | mountStampReadEnd (r : ReadOutcome)
  | mountRecordReadEnd (r : ReadOutcome)
  | formatStampReadEnd (r : ReadOutcome)
  | lineProgramEnd (v : Verify)
  | openStampProgramEnd (v : Verify)
  | eraseStampProgramEnd (v : Verify)
  | eraseEnd (v : Verify)
  | eraseSuspended
  | formatEraseEnd (v : Verify)
  | formatStampProgramEnd (v : Verify)
  | mountOpenStampEnd (v : Verify)
  | formatOpenStampEnd (v : Verify)
  | formatRetireProgramEnd (v : Verify)
  | controlByte (b : FirstByte)
  | csRisingEdge
  | commitRecordOffer
  | vccInOperatingRange
  deriving DecidableEq, Repr

end Sys2Proof
end

