-- ==== Sys2Proof/Machine/State.lean ====
section
/-! DEFINITION. The state of the DH220, block by block, as plain data; the reasons a step can stop; the state after a
power-on reset. Each structure's docstring names the rule that lists its fields. -/

namespace Sys2Proof.Machine

/-! ### The flash array -/

/-- What is known of a line of undefined bytes. -/
inductive UndefKind where
  /-- Nothing (R103, R116). -/
  | free
  /-- It holds no valid erase stamp (R3, R116). -/
  | noEraseStamp
  /-- It reads neither blank nor as a valid open stamp (R132). -/
  | noOpenStamp
  deriving DecidableEq, Repr

/-- The flash array: 131072 bytes in one canonical form (R1, R2), the lines that are written in the sense of R2, and
the lines that hold undefined bytes (R103, R116). Lines are numbered 256 × sector + line. -/
structure Flash where
  /-- Bytes that are not FFh, by byte address, addresses strictly rising. -/
  cells : List Host.Cell
  /-- Written lines, strictly rising. -/
  written : List Nat
  /-- Lines of undefined bytes, line numbers strictly rising. -/
  undef : List (Nat × UndefKind)
  deriving DecidableEq, Repr

/-- The place where a record begins. -/
structure Loc where
  sector : SectorIx
  line : Nat
  deriving DecidableEq, Repr

/-! ### The Sector Table -/

/-- The seven states of a sector (R27). -/
inductive SectorState where
  | blank
  | active
  | sealed
  | reclaiming
  | erasePending
  | erasing
  | retired
  deriving DecidableEq, Repr

/-- One entry of the Sector Table (R27); `generation` is named by the overview of 00_scope (log 27). -/
structure SectorEntry where
  st : SectorState
  eraseCount : Nat
  activation : Nat
  openingSeq : Nat
  live : Nat
  dead : Nat
  mark : Bool
  retireLoc : Option Loc
  generation : Nat
  deriving DecidableEq, Repr

/-! ### Records and the Log Writer -/

/-- The six record kinds (R5). -/
inductive RecKind where
  | value
  | tombstone
  | commit
  | reclaimBegin
  | reclaimEnd
  | retire
  deriving DecidableEq, Repr

/-- A record (R5). Its length is the payload's; its line count and check code follow (R7, R8). -/
structure Record where
  kind : RecKind
  solo : Bool
  relocated : Bool
  key : Key
  txn : Nat
  seq : Nat
  payload : List Byte
  deriving DecidableEq, Repr

/-- The two streams of the Log Writer (section 1.6). -/
inductive Stream where
  | commit
  | reclaim
  deriving DecidableEq, Repr

/-- The record in progress (R17). `place` is none while an opening is in progress for it. -/
structure InProgress where
  stream : Stream
  record : Record
  place : Option Loc
  done : Nat
  failures : Nat
  deriving DecidableEq, Repr

/-- The opening in progress (R17): its candidate, whether the sealing is early (R24), and the numbers of the stamp. -/
structure Opening where
  candidate : SectorIx
  early : Bool
  activation : Nat
  openingSeq : Nat
  deriving DecidableEq, Repr

/-- The ACTIVE sector with its append point, line 2–256 (R17). -/
structure AppendPoint where
  sector : SectorIx
  line : Nat
  deriving DecidableEq, Repr

/-- The Log Writer (R17, R18). -/
structure LogWriter where
  point : Option AppendPoint
  current : Option InProgress
  opening : Option Opening
  commitReady : Option Record
  reclaimReady : Option Record
  commitRes : Option Nat
  reclaimRes : Option Nat
  flag : Stream
  stopped : Bool
  seqCtr : Nat
  actCtr : Nat
  txnCtr : Nat
  deriving DecidableEq, Repr

/-! ### The Key Directory -/

/-- One entry of the Key Directory (R44). -/
structure DirEntry where
  key : Key
  present : Bool
  loc : Loc
  lines : Nat
  length : Nat
  seq : Nat
  stale : Bool
  deriving DecidableEq, Repr

/-! ### The Transaction Manager -/

/-- A staged operation (R63): a PUT with its payload, or a DELETE. -/
structure Staged where
  key : Key
  value : Option (List Byte)
  deriving DecidableEq, Repr

/-- The two phases of a commit and of a settings write (R61). -/
inductive WritePhase where
  | waitingSpace
  | writing
  deriving DecidableEq, Repr

/-- The commit in flight (R61). -/
structure CommitFlight where
  n : Nat
  amount : Nat
  phase : WritePhase
  first : Nat
  txn : Nat
  nextIx : Nat
  written : List Loc
  deriving DecidableEq, Repr

/-- The settings write in flight (R61, R82). `seq` is 0 until the number is taken. -/
structure SettingsFlight where
  phase : WritePhase
  payload : List Byte
  seq : Nat
  deriving DecidableEq, Repr

/-- The Transaction Manager (R61). -/
structure TxnManager where
  staging : List Staged
  held : Bool
  commit : Option CommitFlight
  settings : Option SettingsFlight
  deriving DecidableEq, Repr

/-! ### The Reclaim Engine -/

/-- The seven states of the engine (R83). -/
inductive EngineState where
  | idle
  | beginning
  | copying
  | ending
  | erasing
  | stamping
  | retiring
  deriving DecidableEq, Repr

/-- The three kinds of unit (R83). -/
inductive UnitKind where
  | pass
  | resumedPass
  | pendingErase
  deriving DecidableEq, Repr

/-- Who owns a unit (R83). -/
inductive Owner where
  | automatic
  | command (tag : Byte)
  deriving DecidableEq, Repr

/-- What referred to a line at its first failed read (R91). -/
inductive LineRef where
  | entry (key : Key) (seq : Nat) (lines : Nat)
  | retireLoc (named : SectorIx)
  deriving DecidableEq, Repr

/-- The two causes of a retirement (R95). -/
inductive RetireCause where
  | eraseFault
  | endurance
  deriving DecidableEq, Repr

/-- The status codes of completions (R157). -/
inductive Status where
  | ok
  | notFound
  | badKey
  | badLength
  | badArgument
  | unknownCommand
  | protected_
  | busy
  | wrongState
  | stagingFull
  | nothingStaged
  | noDirectorySpace
  | noSpace
  | notMounted
  | readOnly
  | arrayFault
  | powerFail
  | unformatted
  deriving DecidableEq, Repr

/-- The result the engine records at a unit's end (R98). -/
structure UnitResult where
  status : Status
  sector : SectorIx
  copyCount : Nat
  linesFreed : Nat
  deriving DecidableEq, Repr

/-- The Reclaim Engine (R83). -/
structure Engine where
  st : EngineState
  unit : Option UnitKind
  sector : Option SectorIx
  cursor : Nat
  attempts : Nat
  firstRef : Option LineRef
  copyCount : Nat
  copiedLines : Nat
  owner : Owner
  cause : RetireCause
  stalled : Bool
  lastResult : Option UnitResult
  deriving DecidableEq, Repr

/-! ### The Array Sequencer -/

/-- The four request slots (R106). -/
inductive SlotId where
  | h
  | l
  | c
  | m
  deriving DecidableEq, Repr

/-- The line count of a record-form READ (R103). -/
inductive ReadLen where
  | lines (n : Nat)
  | header
  deriving DecidableEq, Repr

/-- The array operations with their operands (R103). -/
inductive ArrayOp where
  | readRecord (sec : SectorIx) (line : Nat) (len : ReadLen)
  | readLines (sec : SectorIx) (line : Nat) (n : Nat)
  | program (sec : SectorIx) (line : Nat) (data : List Byte)
  | erase (sec : SectorIx)
  deriving DecidableEq, Repr

/-- A request in a slot, waiting or in progress (R105). -/
structure Request where
  op : ArrayOp
  inProgress : Bool
  deriving DecidableEq, Repr

/-- The condition of an ERASE that has begun (R105). -/
inductive EraseCond where
  | running
  | suspending
  | suspended
  deriving DecidableEq, Repr

/-- An ERASE that has begun (R105). `time` is its running time so far in microseconds (log 7). -/
structure EraseRun where
  slot : SlotId
  cond : EraseCond
  time : Nat
  suspensions : Nat
  limit : Nat
  deriving DecidableEq, Repr

/-- The Array Sequencer (R105). Read occupancy is computed from the slots. -/
structure Sequencer where
  h : Option Request
  l : Option Request
  c : Option Request
  m : Option Request
  busy : Option SlotId
  erase : Option EraseRun
  aging : Nat
  deriving DecidableEq, Repr

/-! ### The Store Controller -/

/-- The six store states (R117). -/
inductive StoreState where
  | unmounted
  | mounting
  | mounted
  | readOnly
  | formatting
  | powerHold
  deriving DecidableEq, Repr

/-- The read-only causes (R117). -/
inductive Cause where
  | none
  | retirement
  | sequence
  | directory
  | noSector
  deriving DecidableEq, Repr

/-- The six phases of a mount (R117). -/
inductive MountPhase where
  | stamps
  | records
  | resolve
  | build
  | load
  | open_
  deriving DecidableEq, Repr

/-- The mount results (R117). -/
inductive MountResult where
  | none
  | clean
  | repaired
  | unformatted
  | aborted
  deriving DecidableEq, Repr

/-- Whose mount is in flight (R117). -/
inductive MountOwner where
  | automatic
  | command (tag : Byte)
  deriving DecidableEq, Repr

/-- What line 1 of a sector holds (R4, R123). -/
inductive OpenStampRead where
  | blank
  | valid (activation : Nat) (openingSeq : Nat)
  | invalid
  deriving DecidableEq, Repr

/-- The two stamps of a sector as STAMPS judged them: generation and erase count of a valid erase stamp (R122). -/
structure StampRead where
  erase : Option (Nat × Nat)
  opening : OpenStampRead
  deriving DecidableEq, Repr

/-- An accepted record as the scan keeps it (R124). -/
structure ScanRec where
  kind : RecKind
  solo : Bool
  relocated : Bool
  key : Key
  length : Nat
  lines : Nat
  txn : Nat
  seq : Nat
  loc : Loc
  /-- A COMMIT's count, or the sector index a marker names. -/
  operand : Nat
  /-- A RECLAIM-END's copy count. -/
  copies : Nat
  deriving DecidableEq, Repr

/-- The settings payload the scan keeps for a sector (R124). -/
structure ScanSettings where
  loc : Loc
  seq : Nat
  payload : List Byte
  deriving DecidableEq, Repr

/-- What a mount has gathered so far (R122–R124). -/
structure MountScan where
  /-- The stamps of sectors 0, 1, … as read. -/
  stamps : List StampRead
  /-- Opened sectors still to scan, the one being scanned first. -/
  toScan : List SectorIx
  cursor : Nat
  attempts : Nat
  /-- Accepted records, oldest first. -/
  recs : List ScanRec
  /-- For each sector scanned or being scanned, the line after its last written line. -/
  appendAt : List (SectorIx × Nat)
  settings : List ScanSettings
  /-- A repair has been found in STAMPS or RESOLVE, or a torn line in RECORDS (R131). -/
  repair : Bool
  deriving DecidableEq, Repr

/-- The step a format has reached (R135, R136). -/
inductive FormatStep where
  | reading (i : SectorIx)
  | erasing (cur : SectorIx) (todo : List SectorIx)
  | stamping (cur : SectorIx) (todo : List SectorIx)
  | opening (candidate : SectorIx)
  | retiring (cur : SectorIx) (todo : List SectorIx)
  deriving DecidableEq, Repr

/-- The format in flight (R117). -/
structure FormatFlight where
  generation : Nat
  toRetire : List SectorIx
  tag : Byte
  step : FormatStep
  deriving DecidableEq, Repr

/-- What the request in slot M is for. -/
inductive MPurpose where
  | mountStamp (i : SectorIx)
  | mountRecord
  | mountOpen (candidate : SectorIx) (activation : Nat) (openingSeq : Nat)
  | formatRead (i : SectorIx)
  | formatErase (i : SectorIx)
  | formatStamp (i : SectorIx)
  | formatOpen (candidate : SectorIx) (activation : Nat) (openingSeq : Nat)
  | formatRetire (i : SectorIx)
  deriving DecidableEq, Repr

/-- The Store Controller's request in slot M; `abandoned` once its mount or format has ended before it (R132, R137). -/
structure MRequest where
  purpose : MPurpose
  abandoned : Bool
  deriving DecidableEq, Repr

/-- The Store Controller (R117). -/
structure StoreCtl where
  st : StoreState
  cause : Cause
  dirValid : Bool
  phase : MountPhase
  result : MountResult
  generation : Nat
  format : Option FormatFlight
  mount : Option MountOwner
  scan : MountScan
  req : Option MRequest
  deriving DecidableEq, Repr

/-! ### Guards and settings -/

/-- The modes of a guard slot (R138). -/
inductive GuardMode where
  | none
  | writeGuarded
  | hidden
  deriving DecidableEq, Repr

/-- A guard slot (R138). -/
structure GuardSlot where
  inUse : Bool
  low : Key
  high : Key
  mode : GuardMode
  fixed : Bool
  deriving DecidableEq, Repr

/-- The working settings (R165). -/
structure Settings where
  threshold : Nat
  autoReclaim : Nat
  suspendLimit : Nat
  deriving DecidableEq, Repr

/-! ### The Command Unit -/

/-- A command entry (R149). -/
structure CmdEntry where
  code : Byte
  tag : Byte
  key : Key
  len : Byte
  arg0 : Byte
  arg1 : Byte
  arg2 : Byte
  arg3 : Byte
  deriving DecidableEq, Repr

/-- The GET being executed with the snapshot of its entry (R50, R153). -/
structure GetFlight where
  tag : Byte
  key : Key
  loc : Loc
  lines : Nat
  length : Nat
  seq : Nat
  deriving DecidableEq, Repr

/-- A completion entry (R149). -/
structure Completion where
  tag : Byte
  code : Byte
  status : Status
  a : BitVec 32
  b : BitVec 16
  c : BitVec 16
  deriving DecidableEq, Repr

/-- The Command Unit with the parameter locations (R149). -/
structure CmdUnit where
  queue : List CmdEntry
  executing : Option GetFlight
  inFlight : List (Byte × Byte)
  completions : List Completion
  tag : Byte
  key : Key
  len : Byte
  arg0 : Byte
  arg1 : Byte
  arg2 : Byte
  arg3 : Byte
  deriving DecidableEq, Repr

/-! ### The register window and the serial port -/

/-- The direction of a frame; a frame whose control byte has bit 6 set is ignored (R172). -/
inductive FrameDir where
  | read
  | write
  | ignored
  deriving DecidableEq, Repr

/-- The DATA-OUT byte in transfer, and whether its completion advances OUT-POS (R177). -/
structure OutByte where
  byte : Byte
  advances : Bool
  deriving DecidableEq, Repr

/-- An open frame: direction, current address, the snapshot of the 64 locations, the DATA-OUT byte in transfer. -/
structure Frame where
  dir : FrameDir
  addr : BitVec 6
  snapshot : List Byte
  out : Option OutByte
  deriving DecidableEq, Repr

/-- The port: ready for a control byte, in a frame, or taking no byte until CS# has been high (R180). -/
inductive PortState where
  | ready
  | frame (f : Frame)
  | waitHigh
  deriving DecidableEq, Repr

/-- The register window and the serial port (R172–R180). -/
structure Window where
  faults : BitVec 16
  intEnable : BitVec 16
  input : List Byte
  output : List Byte
  outPos : Nat
  port : PortState
  /-- What SDO drives: none is high-impedance. -/
  sdo : Option Byte
  deriving DecidableEq, Repr

/-- The input pins that are no part of the serial port (section 11.7). -/
structure Pins where
  resetLow : Bool
  pfailLow : Bool
  /-- VCC has come within its operating range since the last power-on reset (R180). -/
  vccInRange : Bool
  deriving DecidableEq, Repr

/-! ### The whole -/

/-- The state of the DH220. `freeCount` and `pending` are the model's own. -/
structure State where
  flash : Flash
  sectors : Vector SectorEntry 32
  dir : List DirEntry
  lw : LogWriter
  tm : TxnManager
  eng : Engine
  arr : Sequencer
  store : StoreCtl
  guards : Vector GuardSlot 8
  settings : Settings
  cu : CmdUnit
  win : Window
  pins : Pins
  /-- How many free values have been drawn (log 3). -/
  freeCount : Nat
  /-- The commands that wait, first in, first out. -/
  pending : List Instr
  deriving DecidableEq, Repr

/-- Why a step stops with a fault. -/
inductive Fault where
  /-- Raised by any command whose internal happenings have not come to rest within `Config.cascadeBound` of them
  (log 11). Safe: the model stops where the part goes on. -/
  | unsettled
  deriving DecidableEq, Repr

/-- Why a step is refused. -/
inductive Refusal where
  /-- An arm of `exec` without a meaning. No arm of this model answers it. Safe. -/
  | notModelled (mnemonic : String)
  deriving DecidableEq, Repr

/-! ### Reset values -/

/-- A Sector Table entry after a reset (R27). -/
def SectorEntry.reset : SectorEntry :=
  { st := .erasePending, eraseCount := 0, activation := 0, openingSeq := 0, live := 0, dead := 0, mark := false,
    retireLoc := none, generation := 0 }

/-- The Log Writer after a reset (R17; counters: section 1.4). -/
def LogWriter.reset : LogWriter :=
  { point := none, current := none, opening := none, commitReady := none, reclaimReady := none, commitRes := none,
    reclaimRes := none, flag := .commit, stopped := false, seqCtr := 0, actCtr := 0, txnCtr := 0 }

/-- The Transaction Manager after a reset (R61). -/
def TxnManager.reset : TxnManager :=
  { staging := [], held := false, commit := none, settings := none }

/-- The Reclaim Engine after a reset (R83). -/
def Engine.reset : Engine :=
  { st := .idle, unit := none, sector := none, cursor := 2, attempts := 0, firstRef := none, copyCount := 0,
    copiedLines := 0, owner := .automatic, cause := .eraseFault, stalled := false, lastResult := none }

/-- The Array Sequencer after a reset (R105). -/
def Sequencer.reset : Sequencer :=
  { h := none, l := none, c := none, m := none, busy := none, erase := none, aging := 0 }

/-- An empty mount scan. -/
def MountScan.empty : MountScan :=
  { stamps := [], toScan := [], cursor := 2, attempts := 0, recs := [], appendAt := [], settings := [],
    repair := false }

/-- The Store Controller after a reset (R117). -/
def StoreCtl.reset : StoreCtl :=
  { st := .mounting, cause := .none, dirValid := false, phase := .stamps, result := .none, generation := 0,
    format := none, mount := some .automatic, scan := MountScan.empty, req := none }

/-- A cleared guard slot (R138). -/
def GuardSlot.cleared : GuardSlot :=
  { inUse := false, low := 0#16, high := 0#16, mode := .none, fixed := false }

/-- The factory defaults (R165). -/
def Settings.factory : Settings :=
  { threshold := 3, autoReclaim := 1, suspendLimit := 24 }

/-- The Command Unit after a reset (R149). -/
def CmdUnit.reset : CmdUnit :=
  { queue := [], executing := none, inFlight := [], completions := [], tag := 0#8, key := 0#16, len := 0#8,
    arg0 := 0#8, arg1 := 0#8, arg2 := 0#8, arg3 := 0#8 }

/-- The register window after a reset with CS# high (R175, R180). -/
def Window.reset : Window :=
  { faults := 0#16, intEnable := 0#16, input := [], output := [], outPos := 0, port := .ready, sdo := none }

/-- An array that nothing has written (log 5). -/
def Flash.blank : Flash :=
  { cells := [], written := [], undef := [] }

/-- The DH220 right after a power-on reset has acted, before VCC is within its operating range ends it (R180, log 6):
each block as its reset rule says, the array blank. -/
def State.reset : State :=
  { flash := Flash.blank
    sectors := Vector.replicate 32 SectorEntry.reset
    dir := []
    lw := LogWriter.reset
    tm := TxnManager.reset
    eng := Engine.reset
    arr := Sequencer.reset
    store := StoreCtl.reset
    guards := Vector.replicate 8 GuardSlot.cleared
    settings := Settings.factory
    cu := CmdUnit.reset
    win := Window.reset
    pins := { resetLow := false, pfailLow := false, vccInRange := false }
    freeCount := 0
    pending := [] }

end Sys2Proof.Machine
end

