-- ==== Sys2Proof/Machine/Layout.lean ====
section
/-! DEFINITION. The byte layouts of records, stamps and the settings payload (R181–R183), the check code (R8), the
arithmetic of line counts (R7) and the judgements of R3, R4 and R9. Multi-byte fields are stored high byte first. -/

namespace Sys2Proof.Machine

/-! ### Fields -/

/-- Two bytes, high byte first (R181). -/
def be16 (n : Nat) : List Byte :=
  [BitVec.ofNat 8 (n / 256), BitVec.ofNat 8 n]

/-- Four bytes, high byte first (R181). -/
def be32 (n : Nat) : List Byte :=
  [BitVec.ofNat 8 (n / 16777216), BitVec.ofNat 8 (n / 65536), BitVec.ofNat 8 (n / 256), BitVec.ofNat 8 n]

/-- The byte at an offset; 0 past the end. -/
def byteAt (bs : List Byte) (i : Nat) : Byte :=
  bs.getD i 0#8

/-- A two-byte field, high byte first (R181). -/
def field16 (bs : List Byte) (i : Nat) : Nat :=
  256 * (byteAt bs i).toNat + (byteAt bs (i + 1)).toNat

/-- A four-byte field, high byte first (R181). -/
def field32 (bs : List Byte) (i : Nat) : Nat :=
  65536 * field16 bs i + field16 bs (i + 2)

/-! ### The check code (R8) -/

/-- One bit of the CRC, polynomial 1021h. -/
def crcBit (c : BitVec 16) : BitVec 16 :=
  if c.msb then (c <<< 1) ^^^ 0x1021#16 else c <<< 1

/-- `k` bits of the CRC. -/
def crcBits : Nat → BitVec 16 → BitVec 16
  | 0, c => c
  | k + 1, c => crcBits k (crcBit c)

/-- One byte, most significant bit first. -/
def crcByte (c : BitVec 16) (b : Byte) : BitVec 16 :=
  crcBits 8 (c ^^^ (b.zeroExtend 16 <<< 8))

/-- The check code of some bytes: initial value FFFFh, no final inversion (R8). -/
def crc16 (bs : List Byte) : BitVec 16 :=
  bs.foldl crcByte 0xFFFF#16

/-- Bytes followed by their check code, high byte first (R8). -/
def withCheck (bs : List Byte) : List Byte :=
  bs ++ be16 (crc16 bs).toNat

/-- Whether the two bytes at offset `n` are the check code of the `n` bytes before them (R8). -/
def checkVerifies (bs : List Byte) (n : Nat) : Bool :=
  (crc16 (bs.take n)).toNat == field16 bs n

/-- Bytes filled up with 00h to `n` (R181, R182). -/
def padTo (n : Nat) (bs : List Byte) : List Byte :=
  bs ++ List.replicate (n - bs.length) 0#8

/-! ### Records -/

/-- Lines of a record of a payload length (R7). -/
def linesFor (length : Nat) : Nat :=
  (14 + length + 15) / 16

/-- The code of a kind (R181). -/
def RecKind.code : RecKind → Byte
  | .value => 0x01#8
  | .tombstone => 0x02#8
  | .commit => 0x03#8
  | .reclaimBegin => 0x04#8
  | .reclaimEnd => 0x05#8
  | .retire => 0x06#8

/-- The kind of a code, if it is known (R181). -/
def RecKind.ofCode (b : Byte) : Option RecKind :=
  match b.toNat with
  | 1 => some .value
  | 2 => some .tombstone
  | 3 => some .commit
  | 4 => some .reclaimBegin
  | 5 => some .reclaimEnd
  | 6 => some .retire
  | _ => none

/-- Payload bytes of a record (R5). -/
def Record.length (r : Record) : Nat :=
  r.payload.length

/-- The line count of a record (R7). -/
def Record.lines (r : Record) : Nat :=
  linesFor r.length

/-- The flags byte (R181). -/
def flagsByte (solo relocated : Bool) : Byte :=
  BitVec.ofNat 8 (solo.toNat + 2 * relocated.toNat)

/-- The 12 header bytes of a record (R181). -/
def Record.header (r : Record) : List Byte :=
  [r.kind.code, flagsByte r.solo r.relocated] ++ be16 r.key.toNat ++
    [BitVec.ofNat 8 r.length, BitVec.ofNat 8 r.lines] ++ be16 r.txn ++ be32 r.seq

/-- The bytes of a record's lines: header, payload, check code, pad (R181). -/
def Record.bytes (r : Record) : List Byte :=
  padTo (Config.lineBytes * r.lines) (withCheck (r.header ++ r.payload))

/-- The 16 bytes of a record's k-th line. -/
def Record.lineData (r : Record) (k : Nat) : List Byte :=
  (r.bytes.drop (Config.lineBytes * k)).take Config.lineBytes

/-- The record whose fields some bytes hold, when the kind is known (R181). The line count is not part of it. -/
def parseRecord (bs : List Byte) : Option Record :=
  match RecKind.ofCode (byteAt bs 0) with
  | none => none
  | some kind =>
    some
      { kind := kind
        solo := (byteAt bs 1).getLsbD 0
        relocated := (byteAt bs 1).getLsbD 1
        key := BitVec.ofNat 16 (field16 bs 2)
        txn := field16 bs 6
        seq := field32 bs 8
        payload := (bs.drop 12).take (byteAt bs 4).toNat }

/-- Whether a key is a user key (R45). -/
def isUserKey (k : Key) : Bool :=
  decide (0x0001#16 ≤ k ∧ k ≤ 0xFEFF#16)

/-- Whether the fields R6 fixes by kind and flags lie within its values (R6, R9; the settings key stands on SOLO
VALUE records only, log 14). -/
def Record.fieldsFit (r : Record) : Bool :=
  match r.kind with
  | .value =>
    (isUserKey r.key || (decide (r.key = Config.settingsKey) && r.solo)) && decide (r.length ≤ Config.maxLength) &&
      (if r.solo then decide (r.txn = 0) else decide (1 ≤ r.txn))
  | .tombstone =>
    isUserKey r.key && decide (r.length = 0) && (if r.solo then decide (r.txn = 0) else decide (1 ≤ r.txn))
  | .commit => decide (r.key = 0#16) && decide (r.length = 1) && decide (1 ≤ r.txn)
  | .reclaimBegin => decide (r.key = 0#16) && decide (r.length = 1) && decide (r.txn = 0)
  | .reclaimEnd => decide (r.key = 0#16) && decide (r.length = 3) && decide (r.txn = 0)
  | .retire => decide (r.key = 0#16) && decide (r.length = 1) && decide (r.txn = 0)

/-- The first payload byte: a COMMIT's count, or the sector a marker names (R181). -/
def Record.operand (r : Record) : Nat :=
  (byteAt r.payload 0).toNat

/-- A RECLAIM-END's copy count (R181). -/
def Record.copies (r : Record) : Nat :=
  field16 r.payload 1

/-- Whether the payload operands lie in range (R9). -/
def Record.operandsFit (r : Record) : Bool :=
  match r.kind with
  | .value => true
  | .tombstone => true
  | .commit => decide (2 ≤ r.operand ∧ r.operand ≤ 16)
  | .reclaimBegin => decide (r.operand < Config.sectorCount)
  | .reclaimEnd => decide (r.operand < Config.sectorCount) && decide (r.copies ≤ Config.recordAreaLines)
  | .retire => decide (r.operand < Config.sectorCount)

/-- What a record-form READ returns: the bytes of the lines read, their number, whether the check code verifies
(R103). -/
structure ReadResult where
  bytes : List Byte
  lines : Nat
  checkOk : Bool
  deriving DecidableEq, Repr

/-- When the check code of a record-form READ verifies (R103). -/
def recordCheckOk (bs : List Byte) (lines : Nat) : Bool :=
  decide ((byteAt bs 4).toNat ≤ Config.maxLength) && decide (linesFor (byteAt bs 4).toNat ≤ lines) &&
    checkVerifies bs (12 + (byteAt bs 4).toNat)

/-- The valid record that the lines read from line `p` begin, if they do (R9). -/
def validRecordAt (p : Nat) (rr : ReadResult) : Option Record :=
  match parseRecord rr.bytes with
  | none => none
  | some r =>
    if (!r.relocated || r.solo) &&
       (r.solo || r.kind == .value || r.kind == .tombstone) &&
       r.fieldsFit &&
       decide ((byteAt rr.bytes 5).toNat = r.lines) &&
       decide (p + r.lines - 1 ≤ 255) &&
       decide (1 ≤ r.seq ∧ r.seq < Config.maxSequenceCounter) &&
       r.operandsFit &&
       rr.checkOk
    then some r
    else none

/-- Whether 16 bytes are a blank line (R2). -/
def isBlankLine (bs : List Byte) : Bool :=
  (bs.take Config.lineBytes).all (· == Config.blankByte)

/-! ### The records the blocks form -/

/-- The VALUE or TOMBSTONE record of a staged operation (R74). -/
def Staged.record (op : Staged) (solo : Bool) (txn seq : Nat) : Record :=
  match op.value with
  | some bytes =>
    { kind := .value, solo := solo, relocated := false, key := op.key, txn := txn, seq := seq, payload := bytes }
  | none =>
    { kind := .tombstone, solo := solo, relocated := false, key := op.key, txn := txn, seq := seq, payload := [] }

/-- The COMMIT record of a transaction of `n` operations (R74). -/
def commitRecord (n txn seq : Nat) : Record :=
  { kind := .commit, solo := true, relocated := false, key := 0#16, txn := txn, seq := seq,
    payload := [BitVec.ofNat 8 n] }

/-- The settings record (R82). -/
def settingsRecord (payload : List Byte) (seq : Nat) : Record :=
  { kind := .value, solo := true, relocated := false, key := Config.settingsKey, txn := 0, seq := seq,
    payload := payload }

/-- RECLAIM-BEGIN naming a sector (R87). -/
def reclaimBeginRecord (v : SectorIx) (seq : Nat) : Record :=
  { kind := .reclaimBegin, solo := true, relocated := false, key := 0#16, txn := 0, seq := seq,
    payload := [BitVec.ofNat 8 v.val] }

/-- RECLAIM-END naming a sector, with the copy count (R92). -/
def reclaimEndRecord (v : SectorIx) (copies seq : Nat) : Record :=
  { kind := .reclaimEnd, solo := true, relocated := false, key := 0#16, txn := 0, seq := seq,
    payload := BitVec.ofNat 8 v.val :: be16 copies }

/-- RETIRE naming a sector (R95). -/
def retireRecord (v : SectorIx) (seq : Nat) : Record :=
  { kind := .retire, solo := true, relocated := false, key := 0#16, txn := 0, seq := seq,
    payload := [BitVec.ofNat 8 v.val] }

/-- A relocated copy (R6, R90): SOLO and RELOCATED, transaction number kept by a COMMIT record only. -/
def Record.copy (r : Record) : Record :=
  { r with solo := true, relocated := true, txn := if r.kind = .commit then r.txn else 0 }

/-! ### Stamps (R182) -/

/-- The line of an erase stamp. -/
def eraseStampLine (generation eraseCount : Nat) : List Byte :=
  padTo Config.lineBytes (withCheck (be32 Config.formatMark ++ be16 generation ++ be32 eraseCount))

/-- Generation and erase count of a valid erase stamp (R3). -/
def validEraseStamp (bs : List Byte) : Option (Nat × Nat) :=
  if checkVerifies bs 10 && decide (field32 bs 0 = Config.formatMark) &&
     decide (1 ≤ field16 bs 4) &&
     decide (1 ≤ field32 bs 6 ∧ field32 bs 6 ≤ Config.enduranceLimit)
  then some (field16 bs 4, field32 bs 6)
  else none

/-- The line of an open stamp. -/
def openStampLine (activation openingSeq : Nat) : List Byte :=
  padTo Config.lineBytes (withCheck (be32 activation ++ be32 openingSeq))

/-- How line 1 is judged (R4, R122). -/
def judgeOpenStamp (bs : List Byte) : OpenStampRead :=
  if isBlankLine bs then .blank
  else if checkVerifies bs 8 && decide (1 ≤ field32 bs 0) && decide (1 ≤ field32 bs 4) then
    .valid (field32 bs 0) (field32 bs 4)
  else .invalid

/-! ### The settings payload (R169, R183) -/

/-- The code of a mode (R143, R183). -/
def GuardMode.code : GuardMode → Nat
  | .none => 0
  | .writeGuarded => 1
  | .hidden => 2

/-- The six bytes of a slot's image (R142, R183). -/
def GuardSlot.image (g : GuardSlot) : List Byte :=
  be16 g.low.toNat ++ be16 g.high.toNat ++
    [BitVec.ofNat 8 g.mode.code, BitVec.ofNat 8 (g.inUse.toNat + 2 * g.fixed.toNat)]

/-- The 52 bytes SAVE-SETTINGS writes (R169, R183). -/
def settingsPayload (w : Settings) (g : Vector GuardSlot 8) : List Byte :=
  [0x01#8, BitVec.ofNat 8 w.threshold, BitVec.ofNat 8 w.autoReclaim, BitVec.ofNat 8 w.suspendLimit] ++
    g.toList.flatMap GuardSlot.image

/-- Whether GUARD-SET accepts a range (R143 check 3). -/
def rangeAcceptable (low high : Key) : Bool :=
  decide (low ≠ 0#16) && decide (low ≠ 0xFFFF#16) && decide (high ≠ 0#16) && decide (high ≠ 0xFFFF#16) &&
    decide (low ≤ high)

/-- The slot a saved image loads (R130, R147): cleared unless in use with a range and mode GUARD-SET would accept.
DESIGN CHOICE (log 42): an image in use with the mode byte 0, which no rule writes, clears the slot and does not fix it.
-/
def GuardSlot.ofImage (bs : List Byte) : GuardSlot :=
  let low := BitVec.ofNat 16 (field16 bs 0)
  let high := BitVec.ofNat 16 (field16 bs 2)
  let mode : Option GuardMode :=
    match (byteAt bs 4).toNat with
    | 1 => some .writeGuarded
    | 2 => some .hidden
    | _ => none
  match mode with
  | none => GuardSlot.cleared
  | some m =>
    if (byteAt bs 5).getLsbD 0 && rangeAcceptable low high then
      { inUse := true, low := low, high := high, mode := m, fixed := (byteAt bs 5).getLsbD 1 }
    else GuardSlot.cleared

/-- Whether a payload is of the version SAVE-SETTINGS writes (R130, R183; a payload shorter than 52 bytes is not, log
15). -/
def knownVersion (payload : List Byte) : Bool :=
  decide (byteAt payload 0 = 0x01#8) && decide (52 ≤ payload.length)

/-- A setting from the payload, or its factory default when out of range (R170). -/
def inRangeOr (lo hi dflt v : Nat) : Nat :=
  if lo ≤ v ∧ v ≤ hi then v else dflt

/-- The working settings a payload of the known version loads (R170). -/
def Settings.ofPayload (payload : List Byte) : Settings :=
  { threshold := inRangeOr 2 8 3 (byteAt payload 1).toNat
    autoReclaim := inRangeOr 0 1 1 (byteAt payload 2).toNat
    suspendLimit := inRangeOr 0 24 24 (byteAt payload 3).toNat }

/-- The image of slot `i` in a payload (R183). -/
def imageOf (payload : List Byte) (i : Nat) : List Byte :=
  (payload.drop (4 + 6 * i)).take 6

end Sys2Proof.Machine
end

