-- ==== Sys2Proof/Machine/Ops.lean ====
section
/-! DEFINITION. The named operations over the flash array: the canonical form of its bytes, reading, programming and
erasing (R1, R2, R103, R116), and the free values a line of undefined bytes reads as. -/

namespace Sys2Proof.Machine

/-! ### Choosing from a list -/

/-- The element no other is better than; of equals, the earliest. -/
def bestOf {α : Type} (better : α → α → Bool) : List α → Option α
  | [] => none
  | x :: xs =>
    match bestOf better xs with
    | none => some x
    | some y => if better y x then some y else some x

/-- All sector indices in ascending order. -/
def allSectors : List SectorIx :=
  List.finRange 32

/-! ### Bytes of the array in canonical form -/

/-- The byte at an address; an unlisted address reads FFh (R2). -/
def cellGet : List Host.Cell → Nat → Byte
  | [], _ => Config.blankByte
  | (k, v) :: rest, a => if k = a then v else cellGet rest a

/-- A byte stored at an address; FFh is stored as no entry. -/
def cellSet : List Host.Cell → Nat → Byte → List Host.Cell
  | [], a, v => if v = Config.blankByte then [] else [(a, v)]
  | (k, w) :: rest, a, v =>
    if k < a then (k, w) :: cellSet rest a v
    else if k = a then (if v = Config.blankByte then rest else (a, v) :: rest)
    else if v = Config.blankByte then (k, w) :: rest
    else (a, v) :: (k, w) :: rest

/-- Bytes stored one after another from an address on. -/
def cellsSet : List Host.Cell → Nat → List Byte → List Host.Cell
  | m, _, [] => m
  | m, a, b :: bs => cellsSet (cellSet m a b) (a + 1) bs

/-- Bytes of the array: 128 KiB (section 1.1). -/
def arrayBytes : Nat := Config.sectorCount * Config.linesPerSector * Config.lineBytes

/-- The canonical form: addresses in the array and strictly rising, no entry FFh. -/
def cellsWf : List Host.Cell → Bool
  | [] => true
  | (k, v) :: rest =>
    decide (k < arrayBytes) && decide (v ≠ Config.blankByte) && rest.all (fun c => decide (k < c.1)) && cellsWf rest

/-- Line numbers strictly rising. -/
def linesRising : List Nat → Bool
  | [] => true
  | k :: rest => rest.all (fun n => decide (k < n)) && linesRising rest

/-- The form of the whole array: its bytes are canonical, the written lines and the lines of undefined bytes rise. -/
def Flash.wf (f : Flash) : Bool :=
  cellsWf f.cells && linesRising f.written && linesRising (f.undef.map Prod.fst)

/-! ### Lines -/

/-- The number of a line in the array. -/
def lineNo (sec : SectorIx) (line : Nat) : Nat :=
  Config.linesPerSector * sec.val + line % Config.linesPerSector

/-- The byte at an offset of a line. -/
def Flash.byte (f : Flash) (ln : Nat) (i : Nat) : Byte :=
  cellGet f.cells (Config.lineBytes * ln + i)

/-- The 16 bytes of a line. -/
def Flash.line (f : Flash) (ln : Nat) : List Byte :=
  (List.range Config.lineBytes).map (f.byte ln)

/-- What is known of a line, when its bytes are undefined. -/
def undefKind : List (Nat × UndefKind) → Nat → Option UndefKind
  | [], _ => none
  | (n, k) :: rest, ln => if n = ln then some k else undefKind rest ln

/-- A line number added to a rising list. -/
def insertLine : List Nat → Nat → List Nat
  | [], n => [n]
  | k :: rest, n => if k < n then k :: insertLine rest n else if k = n then k :: rest else n :: k :: rest

/-- A line marked as holding undefined bytes. -/
def markUndef : List (Nat × UndefKind) → Nat → UndefKind → List (Nat × UndefKind)
  | [], n, u => [(n, u)]
  | (k, w) :: rest, n, u =>
    if k < n then (k, w) :: markUndef rest n u
    else if k = n then (n, u) :: rest
    else (n, u) :: (k, w) :: rest

/-- The first line number of a sector. -/
def sectorBase (sec : SectorIx) : Nat :=
  Config.linesPerSector * sec.val

/-- Whether a line number lies in a sector. -/
def inSector (sec : SectorIx) (ln : Nat) : Bool :=
  decide (sectorBase sec ≤ ln ∧ ln < sectorBase sec + Config.linesPerSector)

/-! ### Programming and erasing -/

/-- What is known of the line a PROGRAM has begun on: a torn erase stamp is invalid (R3). -/
def tornKind (line : Nat) : UndefKind :=
  if line = 0 then .noEraseStamp else .free

/-- A PROGRAM begins: the line is written (R2) and holds undefined bytes until it ends well (R116). -/
def Flash.beginProgram (f : Flash) (sec : SectorIx) (line : Nat) (u : UndefKind) : Flash :=
  { f with written := insertLine f.written (lineNo sec line)
           undef := markUndef f.undef (lineNo sec line) u }

/-- A PROGRAM ends with verify passed: the line holds the 16 bytes (R103). -/
def Flash.endProgram (f : Flash) (sec : SectorIx) (line : Nat) (data : List Byte) : Flash :=
  { f with cells := cellsSet f.cells (Config.lineBytes * lineNo sec line) (data.take Config.lineBytes)
           undef := f.undef.filter (fun p => decide (p.1 ≠ lineNo sec line)) }

/-- A PROGRAM ends with verify failed: the line holds undefined bytes (R103). -/
def Flash.failProgram (f : Flash) (sec : SectorIx) (line : Nat) : Flash :=
  { f with undef := markUndef f.undef (lineNo sec line) .free }

/-- Every line of a sector marked as holding undefined bytes, line 0 as `u`. -/
def undefSector (us : List (Nat × UndefKind)) (sec : SectorIx) (u : UndefKind) : List (Nat × UndefKind) :=
  us.filter (fun p => decide (p.1 < sectorBase sec)) ++
    (sectorBase sec, u) :: (List.range 255).map (fun i => (sectorBase sec + 1 + i, UndefKind.free)) ++
    us.filter (fun p => decide (sectorBase sec + Config.linesPerSector ≤ p.1))

/-- An ERASE begins: until it ends well the sector holds no valid erase stamp and its other lines are undefined (R3,
R116). -/
def Flash.beginErase (f : Flash) (sec : SectorIx) : Flash :=
  { f with undef := undefSector f.undef sec .noEraseStamp }

/-- An ERASE ends with verify passed: all 256 lines are blank (R1, R103). -/
def Flash.endErase (f : Flash) (sec : SectorIx) : Flash :=
  { cells := f.cells.filter (fun c => !inSector sec (c.1 / Config.lineBytes))
    written := f.written.filter (fun n => !inSector sec n)
    undef := f.undef.filter (fun p => !inSector sec p.1) }

/-- An ERASE ends with verify failed: what the sector holds is not stated (log 17). -/
def Flash.failErase (f : Flash) (sec : SectorIx) : Flash :=
  { f with undef := undefSector f.undef sec .free }

/-! ### Reading -/

/-- The 16 bytes of a free value. -/
def freeBytes (v : BitVec 128) : List Byte :=
  (List.range 16).map (fun i => v.extractLsb' (8 * (15 - i)) 8)

/-- A line that is neither blank nor a valid stamp. -/
def zeroLine : List Byte :=
  List.replicate 16 0#8

/-- The free bytes kept within what the spec says of the line (R3, R132; log 17). -/
def constrain (u : UndefKind) (bs : List Byte) : List Byte :=
  match u with
  | .free => bs
  | .noEraseStamp => if (validEraseStamp bs).isSome then zeroLine else bs
  | .noOpenStamp => if judgeOpenStamp bs = .invalid then bs else zeroLine

/-- The next free value of a line's bytes. -/
def State.drawLine (s : State) : BitVec 128 × State :=
  (Config.freeLine s.freeCount, { s with freeCount := s.freeCount + 1 })

/-- The next free choice of R98's order. -/
def State.drawOrder (s : State) : Bool × State :=
  (Config.searchFirst s.freeCount, { s with freeCount := s.freeCount + 1 })

/-- One line as a READ returns it. -/
def State.readLine (s : State) (ln : Nat) : List Byte × State :=
  match undefKind s.flash.undef ln with
  | none => (s.flash.line ln, s)
  | some u => (constrain u (freeBytes s.drawLine.1), s.drawLine.2)

/-- `n` lines from line number `ln` on. -/
def State.readSpan (s : State) (ln : Nat) : Nat → List Byte × State
  | 0 => ([], s)
  | n + 1 =>
    let first := s.readLine ln
    let rest := State.readSpan first.2 (ln + 1) n
    (first.1 ++ rest.1, rest.2)

/-- The bytes as the array returned them: altered bytes stand in place of the first ones (log 4). -/
def returned (r : ReadOutcome) (bs : List Byte) : List Byte :=
  match r with
  | .stored => bs
  | .altered x => x.take bs.length ++ bs.drop x.length

/-- The lines a HEADER read takes, from the header line's line count (R103). -/
def headerLines (p : Nat) (header : List Byte) : Nat :=
  if 1 ≤ (byteAt header 5).toNat ∧ (byteAt header 5).toNat ≤ 16 ∧ p + (byteAt header 5).toNat - 1 ≤ 255 then
    (byteAt header 5).toNat
  else 1

/-- The outcome of a record-form READ (R103). -/
def State.readRecord (s : State) (sec : SectorIx) (p : Nat) (len : ReadLen) (r : ReadOutcome) : ReadResult × State :=
  let n :=
    match len with
    | .lines n => min n (256 - p)
    | .header => headerLines p (returned r (s.readLine (lineNo sec p)).1)
  let span := s.readSpan (lineNo sec p) n
  let bs := returned r span.1
  ({ bytes := bs, lines := n, checkOk := recordCheckOk bs n }, span.2)

end Sys2Proof.Machine
end

