-- ==== Sys2Proof/Machine/Flags.lean ====
section
/-! DEFINITION. The fault summary, the interrupt enables and INT# (R178, R179), and the reset lines. -/

namespace Sys2Proof.Machine

/-- The ten fault indications (R178). -/
inductive Indication where
  | programFault
  | eraseFault
  | readFault
  | sectorRetired
  | guardRefusal
  | reclaimStalled
  | powerFail
  | commandOverrun
  | portOverrun
  | mountRepaired
  deriving DecidableEq, Repr

/-- The bit position of an indication (R178). -/
def Indication.bit : Indication → Nat
  | .programFault => 0
  | .eraseFault => 1
  | .readFault => 2
  | .sectorRetired => 3
  | .guardRefusal => 4
  | .reclaimStalled => 5
  | .powerFail => 6
  | .commandOverrun => 7
  | .portOverrun => 8
  | .mountRepaired => 9

/-- The fault summary with one indication alone. -/
def Indication.mask (i : Indication) : BitVec 16 :=
  1#16 <<< i.bit

/-- Raising an indication sets it (R178). -/
def State.raise (s : State) (i : Indication) : State :=
  { s with win := { s.win with faults := s.win.faults ||| i.mask } }

/-- Raising an indication when a condition holds. -/
def State.raiseIf (s : State) (b : Bool) (i : Indication) : State :=
  if b then s.raise i else s

/-- Whether an indication is set. -/
def State.indicated (s : State) (i : Indication) : Bool :=
  s.win.faults.getLsbD i.bit

/-- The part is held in reset: RESET# is low, or the power-on reset has not ended (R180). -/
def State.heldInReset (s : State) : Bool :=
  s.pins.resetLow || !s.pins.vccInRange

/-- INT# is driven low (R179). -/
def State.intLow (s : State) : Bool :=
  !s.heldInReset &&
    (decide (s.win.faults &&& s.win.intEnable &&& 0x03FF#16 ≠ 0#16) ||
      (s.win.intEnable.getLsbD 10 && decide (s.cu.completions ≠ [])))

/-- The enables that exist: bits 10–0 (R179). -/
def intEnableMask : BitVec 16 := 0x07FF#16

end Sys2Proof.Machine
end

