-- ==== Sys2Proof/Machine/Sectors.lean ====
section
/-! DEFINITION. The Sector Table: entries, counts, the choice of the next sector, line accounting, pending marks
(R27–R42). -/

namespace Sys2Proof.Machine

/-- One entry. -/
def State.sector (s : State) (i : SectorIx) : SectorEntry :=
  s.sectors.get i

/-- An entry changed in place. -/
def State.modSector (s : State) (i : SectorIx) (f : SectorEntry → SectorEntry) : State :=
  { s with sectors := s.sectors.set i.val (f (s.sectors.get i)) i.isLt }

/-- The sectors in a state, ascending. -/
def State.sectorsIn (s : State) (st : SectorState) : List SectorIx :=
  allSectors.filter (fun i => decide ((s.sector i).st = st))

/-- The BLANK count (R27). -/
def State.blankCount (s : State) : Nat :=
  (s.sectorsIn .blank).length

/-- The retired count (R27). -/
def State.retiredCount (s : State) : Nat :=
  (s.sectorsIn .retired).length

/-- The candidate for an opening: the BLANK sector with the lowest erase count, ties to the lowest index (R32). -/
def State.candidate (s : State) : Option SectorIx :=
  bestOf (fun a b => decide ((s.sector a).eraseCount < (s.sector b).eraseCount)) (s.sectorsIn .blank)

/-! ### State changes -/

/-- A sector becomes ERASE-PENDING: live and dead lines 0 (R36). -/
def SectorEntry.toErasePending (e : SectorEntry) : SectorEntry :=
  { e with st := .erasePending, live := 0, dead := 0 }

/-- A sector becomes ACTIVE with the numbers of its open stamp (R28, R36). -/
def SectorEntry.toActive (activation openingSeq : Nat) (e : SectorEntry) : SectorEntry :=
  { e with st := .active, activation := activation, openingSeq := openingSeq, live := 0, dead := 0 }

/-- The ACTIVE sector is sealed: the lines from its append point on become dead (R28, R34). -/
def SectorEntry.toSealed (append : Nat) (e : SectorEntry) : SectorEntry :=
  { e with st := .sealed, dead := e.dead + (256 - append) }

/-- A sector's erase is placed: ERASING, activation number and opening sequence 0 (R29, R93). -/
def SectorEntry.toErasing (e : SectorEntry) : SectorEntry :=
  { e with st := .erasing, activation := 0, openingSeq := 0, live := 0, dead := 0 }

/-- A sector is retired (R41). -/
def SectorEntry.toRetired (loc : Option Loc) (e : SectorEntry) : SectorEntry :=
  { e with st := .retired, live := 0, dead := 0, retireLoc := loc }

/-- A stamped sector is BLANK, of the generation stamped (R29, R94). -/
def SectorEntry.toBlank (generation : Nat) (e : SectorEntry) : SectorEntry :=
  { e with st := .blank, live := 0, dead := 0, generation := generation }

/-- A good erase raises the count (R38). -/
def SectorEntry.raiseCount (e : SectorEntry) : SectorEntry :=
  { e with eraseCount := e.eraseCount + 1 }

/-! ### Line accounting -/

/-- Lines that turn from dead to live; no more than are dead (R35; log 25). -/
def SectorEntry.takeLines (n : Nat) (e : SectorEntry) : SectorEntry :=
  { e with live := e.live + min n e.dead, dead := e.dead - min n e.dead }

/-- Lines that turn from live to dead; no more than are live (R35; log 25). -/
def SectorEntry.giveLines (n : Nat) (e : SectorEntry) : SectorEntry :=
  { e with live := e.live - min n e.live, dead := e.dead + min n e.live }

/-- A line whose program the Log Writer requests turns dead (R34). -/
def SectorEntry.addDead (e : SectorEntry) : SectorEntry :=
  { e with dead := e.dead + 1 }

/-- A directory change gives up a record's lines. Lines of a SEALED sector that turn dead clear STALLED (R35, R99). -/
def State.giveUp (s : State) (i : SectorIx) (n : Nat) : State :=
  let s1 := s.modSector i (SectorEntry.giveLines n)
  if (s.sector i).st = .sealed then { s1 with eng := { s1.eng with stalled := false } } else s1

/-- A directory change takes a record's lines (R35). -/
def State.takeUp (s : State) (i : SectorIx) (n : Nat) : State :=
  s.modSector i (SectorEntry.takeLines n)

/-- Every pending mark is cleared (R37). -/
def State.clearMarks (s : State) : State :=
  { s with sectors := s.sectors.map (fun e => { e with mark := false }) }

/-- Every entry at its reset values (R27). -/
def State.resetSectors (s : State) : State :=
  { s with sectors := Vector.replicate 32 SectorEntry.reset }

/-! ### Choosing for reclaim -/

/-- The sectors that hold the log (section 2.2). -/
def SectorState.holdsLog : SectorState → Bool
  | .active => true
  | .sealed => true
  | .reclaiming => true
  | _ => false

/-- Activation order: of two sectors with one activation number, the one with the lower index is the older (R123). -/
def State.older (s : State) (a b : SectorIx) : Bool :=
  decide ((s.sector a).activation < (s.sector b).activation) ||
    (decide ((s.sector a).activation = (s.sector b).activation) && decide (a < b))

/-- Whether no sector that is ACTIVE, SEALED or RECLAIMING is older than `v` (R57, R89). -/
def State.isOldest (s : State) (v : SectorIx) : Bool :=
  allSectors.all (fun i => !(s.sector i).st.holdsLog || !s.older i v)

/-- The retired sector whose RETIRE location is a place, if there is one (R42). -/
def State.retiredAt (s : State) (l : Loc) : Option SectorIx :=
  allSectors.find? (fun i => decide ((s.sector i).st = .retired) && decide ((s.sector i).retireLoc = some l))

/-- A victim's standing apart from the room its copies need (R86, R101). -/
def State.reclaimable (s : State) (i : SectorIx) : Bool :=
  decide ((s.sector i).st = .sealed) && decide (1 ≤ (s.sector i).dead) && !(s.sector i).mark

/-- The state code of SECTOR-QUERY (R43). -/
def SectorState.code : SectorState → Nat
  | .blank => 0
  | .active => 1
  | .sealed => 2
  | .reclaiming => 3
  | .erasePending => 4
  | .erasing => 5
  | .retired => 6

end Sys2Proof.Machine
end

