-- ==== Sys2Proof/Machine/Directory.lean ====
section
/-! DEFINITION. The Key Directory: entries in key order, lookups, and the changes of R54–R58 with their line
accounting (R35) and the stale-copy mark (R57). -/

namespace Sys2Proof.Machine

/-- The entry of a key (R48). -/
def dirFind : List DirEntry → Key → Option DirEntry
  | [], _ => none
  | e :: rest, k => if e.key = k then some e else dirFind rest k

/-- An entry inserted at its key's place, or put in the place of its key's entry (R44). -/
def dirPut : List DirEntry → DirEntry → List DirEntry
  | [], e => [e]
  | x :: rest, e =>
    if x.key < e.key then x :: dirPut rest e
    else if x.key = e.key then e :: rest
    else e :: x :: rest

/-- The directory without a key's entry (R44). -/
def dirRemove (d : List DirEntry) (k : Key) : List DirEntry :=
  d.filter (fun e => decide (e.key ≠ k))

/-- Ascending keys, no two the same (R44). -/
def dirSorted : List DirEntry → Bool
  | [] => true
  | e :: rest => rest.all (fun x => decide (e.key < x.key)) && dirSorted rest

/-- The entry of a key in the directory as it stands (R48). -/
def State.entry (s : State) (k : Key) : Option DirEntry :=
  dirFind s.dir k

/-- Whether a key is PRESENT (R46). -/
def State.isPresent (s : State) (k : Key) : Bool :=
  match s.entry k with
  | some e => e.present
  | none => false

/-- Whether a key has no entry (R48). -/
def State.isNew (s : State) (k : Key) : Bool :=
  (s.entry k).isNone

/-- The entry that refers to a place (R48, R88). -/
def State.entryAt (s : State) (l : Loc) : Option DirEntry :=
  s.dir.find? (fun e => decide (e.loc = l))

/-- Whether an entry has a sequence in `lo … hi - 1` and a location outside a sector (R16, R48). -/
def State.entryOutside (s : State) (v : SectorIx) (lo hi : Nat) : Bool :=
  s.dir.any (fun e => decide (lo ≤ e.seq ∧ e.seq < hi) && decide (e.loc.sector ≠ v))

/-- The entry NEXT returns: the smallest user key above `k` that is PRESENT and that the filter lets through (R53). -/
def State.nextEntry (s : State) (k : Key) (hidden : Key → Bool) : Option DirEntry :=
  s.dir.find? (fun e => decide (k < e.key) && isUserKey e.key && e.present && !hidden e.key)

/-! ### Changes -/

/-- Whether a record given up lies in a sector of higher activation number than the record taken (R57). -/
def State.newerSector (s : State) (given taken : SectorIx) : Bool :=
  s.older taken given

/-- The directory takes a record for a key at the completion of a commit or a settings write (R54, R55): line
accounting of R35, stale-copy mark of R57. -/
def State.takeRecord (s : State) (k : Key) (present : Bool) (loc : Loc) (lines length seq : Nat) : State :=
  let stale :=
    match s.entry k with
    | some old => !present && s.newerSector old.loc.sector loc.sector
    | none => false
  let s1 :=
    match s.entry k with
    | some old => s.giveUp old.loc.sector old.lines
    | none => s
  let s2 := s1.takeUp loc.sector lines
  let new : DirEntry :=
    { key := k, present := present, loc := loc, lines := lines, length := length, seq := seq, stale := stale }
  { s2 with dir := dirPut s2.dir new }

/-- A relocation completes: the copy of a record of key `k`, sequence `seq`, stands at `x` (R56, R57). -/
def State.relocate (s : State) (k : Key) (seq : Nat) (x : Loc) : State :=
  match s.entry k with
  | none => s
  | some e =>
    if e.seq = seq then
      let stale := !e.present && s.newerSector e.loc.sector x.sector
      let s1 := (s.giveUp e.loc.sector e.lines).takeUp x.sector e.lines
      { s1 with dir := dirPut s1.dir { e with loc := x, stale := stale } }
    else if !e.present && decide (seq < e.seq) && s.newerSector x.sector e.loc.sector then
      { s with dir := dirPut s.dir { e with stale := true } }
    else s

/-- An entry is removed and its record's lines turn dead (R35). -/
def State.removeEntry (s : State) (e : DirEntry) : State :=
  let s1 := s.giveUp e.loc.sector e.lines
  { s1 with dir := dirRemove s1.dir e.key }

/-- A tombstone drop (R57). -/
def State.dropTombstone (s : State) (k : Key) (seq : Nat) : State :=
  match s.entry k with
  | some e => if !e.present && decide (e.seq = seq) then s.removeEntry e else s
  | none => s

/-- A record is lost at its second failed read (R58). -/
def State.loseRecord (s : State) (k : Key) (seq : Nat) : State :=
  match s.entry k with
  | some e => if e.seq = seq then s.removeEntry e else s
  | none => s

end Sys2Proof.Machine
end

