-- ==== Sys2Proof/Machine/Guards.lean ====
section
/-! DEFINITION. The Guard Table: coverage, modes, slot descriptions and the effect of resets (R138–R147). -/

namespace Sys2Proof.Machine

/-- A slot covers a key (R139). -/
def GuardSlot.covers (g : GuardSlot) (k : Key) : Bool :=
  g.inUse && decide (g.low ≤ k ∧ k ≤ g.high)

/-- The mode of a key: HIDDEN prevails (R139). -/
def State.guardMode (s : State) (k : Key) : GuardMode :=
  if s.guards.toList.any (fun g => g.covers k && decide (g.mode = .hidden)) then .hidden
  else if s.guards.toList.any (fun g => g.covers k) then .writeGuarded
  else .none

/-- Whether a key is HIDDEN (R140: GET and NEXT). -/
def State.isHidden (s : State) (k : Key) : Bool :=
  decide (s.guardMode k = .hidden)

/-- Whether changes of a key are refused (R140: PUT, DELETE, COMMIT, SAVE-SETTINGS). -/
def State.isGuarded (s : State) (k : Key) : Bool :=
  decide (s.guardMode k ≠ .none)

/-- Whether a slot is fixed (R148). -/
def State.anyFixed (s : State) : Bool :=
  s.guards.toList.any GuardSlot.fixed

/-- The slots after a reset: fixed ones are kept unless the reset is a power-on (R146). -/
def guardsAfterReset (powerOn : Bool) (g : Vector GuardSlot 8) : Vector GuardSlot 8 :=
  g.map (fun x => if x.fixed && !powerOn then x else GuardSlot.cleared)

/-- The slots that are not fixed cleared (R122, R130). -/
def clearUnfixed (g : Vector GuardSlot 8) : Vector GuardSlot 8 :=
  g.map (fun x => if x.fixed then x else GuardSlot.cleared)

/-- The slots as LOAD sets them from a payload of the known version (R130, R147). -/
def loadGuards (payload : List Byte) (g : Vector GuardSlot 8) : Vector GuardSlot 8 :=
  g.mapIdx (fun i x => if x.fixed then x else GuardSlot.ofImage (imageOf payload i))

/-- A slot written (R143, R144). -/
def State.setGuard (s : State) (i : GuardIx) (g : GuardSlot) : State :=
  { s with guards := s.guards.set i.val g i.isLt }

/-- Field A of a slot's description (R143). -/
def GuardSlot.describe (i : GuardIx) (g : GuardSlot) : Nat :=
  i.val + 256 * g.mode.code + (if g.fixed then 65536 else 0)

end Sys2Proof.Machine
end

