-- ==== Sys2Proof/Machine/Operands.lean ====
section
/-! DEFINITION. The Command Unit's operands and results: command codes (R159), status codes (R157), the command queue
and its taking (R150, R151), the input buffer's claim (R64), the answers by store state (R161), and the posting of
completions (R153–R155). -/

namespace Sys2Proof.Machine

/-! ### Codes -/

def codeGet : Byte := 0x10#8
def codeNext : Byte := 0x11#8
def codePut : Byte := 0x20#8
def codeDelete : Byte := 0x21#8
def codeDiscard : Byte := 0x22#8
def codeCommit : Byte := 0x23#8
def codeSetting : Byte := 0x30#8
def codeSaveSettings : Byte := 0x31#8
def codeGuardSet : Byte := 0x38#8
def codeGuardFix : Byte := 0x39#8
def codeSectorQuery : Byte := 0x40#8
def codeReclaim : Byte := 0x41#8
def codeMount : Byte := 0x50#8
def codeFormat : Byte := 0x51#8

/-- The codes of R159. -/
def definedCodes : List Byte :=
  [codeGet, codeNext, codePut, codeDelete, codeDiscard, codeCommit, codeSetting, codeSaveSettings, codeGuardSet,
   codeGuardFix, codeSectorQuery, codeReclaim, codeMount, codeFormat]

/-- The status codes (R157). -/
def Status.code : Status → Byte
  | .ok => 0x00#8
  | .notFound => 0x01#8
  | .badKey => 0x02#8
  | .badLength => 0x03#8
  | .badArgument => 0x04#8
  | .unknownCommand => 0x05#8
  | .protected_ => 0x06#8
  | .busy => 0x07#8
  | .wrongState => 0x08#8
  | .stagingFull => 0x09#8
  | .nothingStaged => 0x0A#8
  | .noDirectorySpace => 0x0B#8
  | .noSpace => 0x0C#8
  | .notMounted => 0x0D#8
  | .readOnly => 0x0E#8
  | .arrayFault => 0x0F#8
  | .powerFail => 0x10#8
  | .unformatted => 0x11#8

/-! ### The queue -/

/-- The input buffer is claimed while a PUT stands in the command queue (R64). -/
def State.claimed (s : State) : Bool :=
  s.cu.queue.any (fun e => decide (e.code = codePut))

/-- The taking conditions of R151 but for the queue's head. -/
def State.mayTake (s : State) : Bool :=
  decide (s.store.st ≠ .mounting) && s.cu.executing.isNone &&
    decide (s.cu.completions.length + s.cu.inFlight.length + 1 ≤ Config.completionQueueSize)

/-- The head entry when it may be taken and its code passes a test (R151, R152). -/
def State.takeable (s : State) (test : Byte → Bool) : Option CmdEntry :=
  match s.cu.queue with
  | [] => none
  | e :: _ => if s.mayTake && test e.code then some e else none

/-- The head entry leaves the queue (R151). -/
def State.dequeue (s : State) : State :=
  { s with cu := { s.cu with queue := s.cu.queue.tail } }

/-! ### Completions -/

/-- A completion joins the tail of the completion queue (R155). -/
def State.post (s : State) (c : Completion) : State :=
  { s with cu := { s.cu with completions := s.cu.completions ++ [c] } }

/-- The completion of a command executed or refused at its take (R153, R154). -/
def State.answer (s : State) (e : CmdEntry) (status : Status) (a b c : Nat) : State :=
  s.post { tag := e.tag, code := e.code, status := status, a := BitVec.ofNat 32 a, b := BitVec.ofNat 16 b,
           c := BitVec.ofNat 16 c }

/-- A background command joins the in-flight list (R154). -/
def State.launch (s : State) (e : CmdEntry) : State :=
  { s with cu := { s.cu with inFlight := s.cu.inFlight ++ [(e.code, e.tag)] } }

/-- Whether a background command of a code is in flight (R149). -/
def State.inFlight (s : State) (code : Byte) : Bool :=
  s.cu.inFlight.any (fun p => decide (p.1 = code))

/-- The first command of a code leaves the in-flight list. -/
def dropFlight : List (Byte × Byte) → Byte → List (Byte × Byte)
  | [], _ => []
  | p :: rest, code => if p.1 = code then rest else p :: dropFlight rest code

/-- A background command ends: it leaves the in-flight list and its completion is posted, in one happening (R154). -/
def State.finish (s : State) (code : Byte) (status : Status) (a b c : Nat) : State :=
  match s.cu.inFlight.find? (fun p => decide (p.1 = code)) with
  | none => s
  | some p =>
    { s with cu := { s.cu with
        inFlight := dropFlight s.cu.inFlight code
        completions := s.cu.completions ++
          [{ tag := p.2, code := code, status := status, a := BitVec.ofNat 32 a, b := BitVec.ofNat 16 b,
             c := BitVec.ofNat 16 c }] } }

/-! ### Answers by store state (R161) -/

/-- The store-state answer to GET and NEXT; none means executed. -/
def State.admitRead (s : State) : Option Status :=
  match s.store.st with
  | .mounted => none
  | .readOnly => none
  | .unmounted => some .notMounted
  | .formatting => some .busy
  | .powerHold => if s.store.dirValid then none else some .notMounted
  | .mounting => some .busy

/-- The store-state answer to PUT, DELETE, DISCARD, COMMIT, SAVE-SETTINGS and RECLAIM. -/
def State.admitWrite (s : State) : Option Status :=
  match s.store.st with
  | .mounted => none
  | .readOnly => some .readOnly
  | .unmounted => some .notMounted
  | .formatting => some .busy
  | .powerHold => some .powerFail
  | .mounting => some .busy

/-- The store-state answer to SETTING, GUARD-SET and GUARD-FIX. -/
def State.admitLocal (s : State) : Option Status :=
  match s.store.st with
  | .formatting => some .busy
  | _ => none

/-! ### Staging, as the Command Unit reports it -/

/-- Staged bytes: the lengths of the staged PUTs (R61). -/
def stagedBytesOf (l : List Staged) : Nat :=
  (l.map (fun o => match o.value with | some v => v.length | none => 0)).sum

/-- Staged bytes (R61). -/
def State.stagedBytes (s : State) : Nat :=
  stagedBytesOf s.tm.staging

/-- Staged operations (R61). -/
def State.stagedOps (s : State) : Nat :=
  s.tm.staging.length

/-- The transaction states (R61). -/
inductive TxnState where
  | idle
  | open_
  | committing
  deriving DecidableEq, Repr

/-- The transaction state follows the list and the commit in flight (R62). -/
def State.txnState (s : State) : TxnState :=
  if s.tm.commit.isSome then .committing
  else if s.tm.staging = [] then .idle
  else .open_

end Sys2Proof.Machine
end

