-- ==== Sys2Proof/Machine/ArraySeq.lean ====
section
/-! DEFINITION. The Array Sequencer: slots, write bar, grants, aging, erase suspension, read occupancy, and what PFAIL#
and READ-ONLY do to waiting requests (R103–R116). -/

namespace Sys2Proof.Machine

/-- A PROGRAM or an ERASE. -/
def ArrayOp.isWrite : ArrayOp → Bool
  | .program _ _ _ => true
  | .erase _ => true
  | _ => false

/-- The sector a READ reads (R105). -/
def ArrayOp.readsSector : ArrayOp → Option SectorIx
  | .readRecord sec _ _ => some sec
  | .readLines sec _ _ => some sec
  | _ => none

/-- A slot's request (R105). -/
def Sequencer.slot (a : Sequencer) : SlotId → Option Request
  | .h => a.h
  | .l => a.l
  | .c => a.c
  | .m => a.m

/-- A slot's request changed. -/
def Sequencer.setSlot (a : Sequencer) (x : SlotId) (r : Option Request) : Sequencer :=
  match x with
  | .h => { a with h := r }
  | .l => { a with l := r }
  | .c => { a with c := r }
  | .m => { a with m := r }

/-- The status the write bar answers with, when it holds (R112). -/
def State.writeBar (s : State) : Option Status :=
  if s.pins.pfailLow || decide (s.store.st = .powerHold) then some .powerFail
  else if s.store.st = .readOnly then some .readOnly
  else if s.store.st = .unmounted then some .notMounted
  else none

/-- Whether a READ of a sector is queued or in progress in any slot (R105, R109). -/
def Sequencer.occupied (a : Sequencer) (sec : SectorIx) : Bool :=
  [a.h, a.l, a.c, a.m].any (fun o => match o with
    | some r => decide (r.op.readsSector = some sec)
    | none => false)

/-- A request placed in slot H or L asks a RUNNING erase to suspend while its count is below its limit (R110). -/
def Sequencer.askSuspend (a : Sequencer) : Sequencer :=
  match a.erase with
  | some e =>
    if e.cond = .running ∧ e.suspensions < e.limit then
      { a with erase := some { e with cond := .suspending, suspensions := e.suspensions + 1 } }
    else a
  | none => a

/-- A request joins its slot (R106). -/
def Sequencer.put (a : Sequencer) (x : SlotId) (op : ArrayOp) : Sequencer :=
  let a1 := a.setSlot x (some { op := op, inProgress := false })
  match x with
  | .h => a1.askSuspend
  | .l => a1.askSuspend
  | .c => a1
  | .m => a1

/-- A request is placed: a PROGRAM or ERASE is first tested against the write bar; the status when refused (R106,
R112). -/
def State.place (s : State) (x : SlotId) (op : ArrayOp) : State × Option Status :=
  match (if op.isWrite then s.writeBar else none) with
  | some st => (s, some st)
  | none => ({ s with arr := s.arr.put x op }, none)

/-! ### The grant -/

/-- Whether a slot holds a request that waits. -/
def Sequencer.waiting (a : Sequencer) (x : SlotId) : Bool :=
  match a.slot x with
  | some r => !r.inProgress
  | none => false

/-- Whether a slot's request is an ERASE held by read occupancy (R109). -/
def Sequencer.heldErase (a : Sequencer) (x : SlotId) : Bool :=
  match a.slot x with
  | some { op := .erase sec, inProgress := _ } => a.occupied sec
  | _ => false

/-- Whether slot M is admitted: while the store is MOUNTING or FORMATTING, and for a READ in every store state (R106,
R112; log 18). -/
def State.admitsM (s : State) : Bool :=
  (decide (s.store.st = .mounting) || decide (s.store.st = .formatting) ||
    (match s.arr.m with | some r => !r.op.isWrite | none => false)) &&
    s.arr.h.isNone && s.arr.l.isNone && s.arr.c.isNone &&
    (match s.arr.erase with | some e => decide (e.slot = .m) | none => true)

/-- Whether a slot's request may be granted (R107): it waits, the write bar does not hold it (R112), it is no held
erase, and slot M is admitted. -/
def State.eligible (s : State) (x : SlotId) : Bool :=
  s.arr.waiting x && !s.arr.heldErase x &&
    (match s.arr.slot x with | some r => !(r.op.isWrite && s.writeBar.isSome) | none => false) &&
    (decide (x ≠ .m) || s.admitsM)

/-- What the begin of an operation does to the array (R2, R116). A mount's open stamp program that is cut leaves a
torn line 1 (R132). -/
def State.beginFlash (s : State) (x : SlotId) (op : ArrayOp) : Flash :=
  match op with
  | .program sec line _ =>
    s.flash.beginProgram sec line
      (if x = .m ∧ line = 1 ∧ s.store.st = .mounting then .noOpenStamp else tornKind line)
  | .erase sec => s.flash.beginErase sec
  | _ => s.flash

/-- The erase that begins with the grant of an ERASE, its limit the working SUSPEND-LIMIT; waiting requests of H and L
make the comparison of R110 at once. -/
def State.beginErase (s : State) (x : SlotId) (op : ArrayOp) (a : Sequencer) : Sequencer :=
  match op with
  | .erase _ =>
    let a1 := { a with erase := some { slot := x, cond := .running, time := 0, suspensions := 0,
                                       limit := s.settings.suspendLimit } }
    if a.waiting .h || a.waiting .l then a1.askSuspend else a1
  | _ => a

/-- A waiting request becomes the operation in progress (R107). -/
def State.start (s : State) (x : SlotId) (aging : Nat) : State :=
  match s.arr.slot x with
  | none => s
  | some r =>
    let a := { s.arr.setSlot x (some { r with inProgress := true }) with busy := some x, aging := aging }
    { s with arr := s.beginErase x r.op a, flash := s.beginFlash x r.op }

/-- The aging count after a grant to slot H or L (R108). -/
def State.aged (s : State) : Nat :=
  if s.eligible .c then min Config.agingLimit (s.arr.aging + 1) else s.arr.aging

/-- Grants inside a suspension, and the resumption when neither H nor L waits (R111). -/
def State.grantSuspended (s : State) (e : EraseRun) : State :=
  if s.eligible .h then s.start .h s.arr.aging
  else if s.eligible .l then s.start .l s.arr.aging
  else { s with arr := { s.arr with busy := some e.slot, erase := some { e with cond := .running } } }

/-- The grant (R107, R108, R111): none while an operation is in progress. -/
def State.grant (s : State) : State :=
  match s.arr.busy with
  | some _ => s
  | none =>
    match s.arr.erase with
    | some e => if e.cond = .suspended then s.grantSuspended e else s
    | none =>
      if s.eligible .c && decide (Config.agingLimit ≤ s.arr.aging) then s.start .c 0
      else if s.eligible .h then s.start .h s.aged
      else if s.eligible .l then s.start .l s.aged
      else if s.eligible .c then s.start .c 0
      else if s.eligible .m then s.start .m s.arr.aging
      else s

/-! ### Ends of operations -/

/-- The operation in progress in a slot, when the array is performing that slot's request. -/
def State.inHand (s : State) (x : SlotId) : Option ArrayOp :=
  if s.arr.busy = some x then
    match s.arr.slot x with
    | some r => if r.inProgress then some r.op else none
    | none => none
  else none

/-- An operation ends: its slot is empty and the array is free (R105, R107). -/
def State.release (s : State) (x : SlotId) : State :=
  { s with arr := { s.arr.setSlot x none with busy := none } }

/-- The end of a PROGRAM on the array (R103). -/
def State.programmed (s : State) (sec : SectorIx) (line : Nat) (data : List Byte) (v : Verify) : State :=
  match v with
  | .passed => { s with flash := s.flash.endProgram sec line data }
  | .failed => { s with flash := s.flash.failProgram sec line }

/-- The end of an ERASE on the array; its suspension count and limit end with it (R103, R111). -/
def State.erased (s : State) (sec : SectorIx) (v : Verify) : State :=
  match v with
  | .passed => { s with flash := s.flash.endErase sec, arr := { s.arr with erase := none } }
  | .failed => { s with flash := s.flash.failErase sec, arr := { s.arr with erase := none } }

/-- Whether the ERASE of a slot is RUNNING (R105). -/
def State.eraseRunning (s : State) (x : SlotId) : Bool :=
  match s.arr.erase with
  | some e => decide (e.slot = x) && decide (e.cond = .running)
  | none => false

/-- A microsecond of running time passes (R105; log 7). -/
def State.tick (s : State) : State :=
  match s.arr.erase with
  | some e => if e.cond = .running then { s with arr := { s.arr with erase := some { e with time := e.time + 1 } } } else s
  | none => s

/-! ### The write bar comes to hold -/

/-- Whether a slot holds a waiting PROGRAM or ERASE. -/
def Sequencer.waitingWrite (a : Sequencer) (x : SlotId) : Bool :=
  match a.slot x with
  | some r => !r.inProgress && r.op.isWrite
  | none => false

/-- The sector of a slot's ERASE returns from ERASING to ERASE-PENDING (R112, R113). -/
def State.unErase (s : State) (x : SlotId) : State :=
  match s.arr.slot x with
  | some { op := .erase sec, inProgress := _ } => s.modSector sec SectorEntry.toErasePending
  | _ => s

/-- A waiting PROGRAM or ERASE is refused: its slot is empty, an erase's sector is ERASE-PENDING, and the aging count
is 0 when the slot is C (R108, R112). -/
def State.dropWaiting (s : State) (x : SlotId) : State :=
  if s.arr.waitingWrite x then
    let s1 := s.unErase x
    { s1 with arr := { s1.arr.setSlot x none with aging := if x = .c then 0 else s1.arr.aging } }
  else s

/-- The ERASE that has begun is abandoned at PFAIL#; an operation in progress inside its suspension goes on (R113). -/
def State.abandonErase (s : State) : State :=
  match s.arr.erase with
  | none => s
  | some e =>
    let s1 := s.unErase e.slot
    { s1 with arr := { s1.arr.setSlot e.slot none with
        erase := none
        busy := if s1.arr.busy = some e.slot then none else s1.arr.busy } }

end Sys2Proof.Machine
end

