-- ==== Sys2Proof/Machine/Signals.lean ====
section
/-! DEFINITION. The internal happenings that one command brings about (spec/95_what_each_step_holds.md): what a block
tells another in the same step. -/

namespace Sys2Proof.Machine

/-- An internal happening still to be dealt with in the current step. -/
inductive Signal where
  /-- A waiting request of a slot, or an erase that had begun, is refused with a status (R112–R114). -/
  | slotRefused (x : SlotId) (st : Status)
  /-- A stream's record is reported written (R19). -/
  | written (x : Stream) (r : Record) (l : Loc)
  /-- A stream's record is refused to its requester (R20, R24–R26). -/
  | refused (x : Stream) (st : Status)
  /-- The Log Writer chooses a record if it can (R18). -/
  | serve
  /-- A waiting commit or settings write repeats its reservation request (R71). -/
  | request
  /-- The engine's unit ends; whether for want of a BLANK sector under a copy or a RECLAIM-END (R98, R99). -/
  | unitEnd (st : Status) (noBlank : Bool)
  /-- The store leaves MOUNTED for READ-ONLY (R119). -/
  | leaveMounted (cause : Cause)
  /-- The engine looks for work (R84). -/
  | look
  deriving DecidableEq, Repr

/-- A happening of its own: the engine's search, and the repeated request of a waiting commit or settings write (R71,
R84, R98). -/
def Signal.isApart : Signal → Bool
  | .look => true
  | .request => true
  | _ => false

/-- What a block answers: the state, and the happenings that follow in the same step, in their order. -/
abbrev Answer := State × List Signal

end Sys2Proof.Machine
end

