-- ==== Sys2Proof/Machine/Writer.lean ====
section
/-! DEFINITION. The Log Writer: free and held lines, reservations, sequence blocks, the streams, placing, sector
changes, early seals and refusals (R10–R12, R17–R26). -/

namespace Sys2Proof.Machine

/-! ### Room -/

/-- Free lines (R21). -/
def State.freeLines (s : State) : Nat :=
  (match s.lw.point with | some p => 256 - p.line | none => 0) + Config.recordAreaLines * s.blankCount

/-- Held lines (R21). -/
def State.heldLines (s : State) : Nat :=
  s.lw.commitRes.getD 0 + s.lw.reclaimRes.getD 0

/-- The Log Writer accepts records and grants reservations (R17). -/
def State.accepting (s : State) : Bool :=
  decide (s.store.st = .mounted) && !s.lw.stopped

/-- The status a record is refused with while the Log Writer does not accept (R17, R26). -/
def State.writerStatus (s : State) : Status :=
  if s.lw.stopped then .powerFail
  else match s.store.st with
    | .powerHold => .powerFail
    | .unmounted => .notMounted
    | _ => .readOnly

/-- The gate of a commit reservation (R22). -/
def State.commitRoom (s : State) (amount : Nat) : Bool :=
  s.accepting && s.lw.commitRes.isNone && decide (s.heldLines + amount + Config.commitReserve ≤ s.freeLines)

/-- The gate of a reclaim reservation (R22). -/
def State.reclaimRoom (s : State) (amount : Nat) : Bool :=
  s.accepting && s.lw.reclaimRes.isNone && decide (s.heldLines + amount ≤ s.freeLines)

/-- A commit reservation granted (R22). -/
def State.reserveCommit (s : State) (amount : Nat) : State :=
  { s with lw := { s.lw with commitRes := some amount } }

/-- A reclaim reservation granted (R22). -/
def State.reserveReclaim (s : State) (amount : Nat) : State :=
  { s with lw := { s.lw with reclaimRes := some amount } }

/-- The commit reservation released (R23). -/
def State.releaseCommit (s : State) : State :=
  { s with lw := { s.lw with commitRes := none } }

/-- The reclaim reservation released (R23). -/
def State.releaseReclaim (s : State) : State :=
  { s with lw := { s.lw with reclaimRes := none } }

/-- `n` lines charged to a stream's reservation; a remainder does not fall below 0 (R23). -/
def LogWriter.charge (w : LogWriter) (x : Stream) (n : Nat) : LogWriter :=
  match x with
  | .commit => { w with commitRes := w.commitRes.map (fun r => r - n) }
  | .reclaim => { w with reclaimRes := w.reclaimRes.map (fun r => r - n) }

/-- A block of `k` sequence numbers: its first number, or none when refused (R10). -/
def State.takeSeq (s : State) (k : Nat) : Option Nat × State :=
  if s.lw.seqCtr + k ≤ Config.maxSequenceCounter then
    (some s.lw.seqCtr, { s with lw := { s.lw with seqCtr := s.lw.seqCtr + k } })
  else (none, s)

/-- The transaction counter advances, wrapping from 65535 to 1 (R12). -/
def nextTxn (t : Nat) : Nat :=
  if t = 65535 then 1 else t + 1

/-! ### Lines of a record -/

/-- The record in progress leaves the Log Writer. -/
def State.dropCurrent (s : State) : State :=
  { s with lw := { s.lw with current := none } }

/-- The record in progress is refused to its requester; its lines stay dead (R26, R34). -/
def State.refuseCurrent (s : State) (st : Status) : Answer :=
  match s.lw.current with
  | none => (s, [.serve])
  | some cur => (s.dropCurrent, [.refused cur.stream st, .serve])

/-- The program of the next line of a placed record is requested through slot L: the append point advances, the line
turns dead and is charged (R19, R23, R34). -/
def State.requestLine (s : State) (cur : InProgress) (loc : Loc) : Answer :=
  let s1 := s.modSector loc.sector SectorEntry.addDead
  let lw := { s1.lw.charge cur.stream 1 with
    current := some cur
    point := s1.lw.point.map (fun p => { p with line := p.line + 1 }) }
  match State.place { s1 with lw := lw } .l
      (.program loc.sector (loc.line + cur.done) (cur.record.lineData cur.done)) with
  | (s2, none) => (s2, [])
  | (s2, some st) => s2.refuseCurrent st

/-- A record is placed at the append point; a record of the COMMIT command marks the sector pending (R19, R37). -/
def State.placeRecord (s : State) (cur : InProgress) (p : AppendPoint) : Answer :=
  let loc : Loc := { sector := p.sector, line := p.line }
  let marks := decide (cur.stream = .commit) && decide (cur.record.key ≠ Config.settingsKey)
  let s1 := if marks then s.modSector p.sector (fun e => { e with mark := true }) else s
  s1.requestLine { cur with place := some loc, done := 0 } loc

/-! ### Openings -/

/-- A sector change is begun: the candidate's open stamp is requested through slot L with the next activation number
and the sequence counter's value (R11, R20). Without a candidate the waiting record is refused NO-SPACE (R20, R24). -/
def State.beginOpening (s : State) (cur : Option InProgress) (early : Bool) : Answer :=
  match s.candidate with
  | none =>
    match cur with
    | none => (s.dropCurrent, [.serve])
    | some c => (s.dropCurrent, [.refused c.stream .noSpace, .serve])
  | some k =>
    let o : Opening := { candidate := k, early := early, activation := s.lw.actCtr, openingSeq := s.lw.seqCtr }
    let lw := { s.lw with current := cur, opening := some o, actCtr := s.lw.actCtr + 1 }
    match State.place { s with lw := lw } .l (.program k 1 (openStampLine o.activation o.openingSeq)) with
    | (s1, none) => (s1, [])
    | (s1, some st) => State.refuseCurrent { s1 with lw := { s1.lw with opening := none } } st

/-- A record is served: placed when it fits, after a sector change otherwise (R19, R20). -/
def State.beginRecord (s : State) (cur : InProgress) : Answer :=
  match s.lw.point with
  | some p =>
    if cur.record.lines ≤ 256 - p.line then s.placeRecord cur p else s.beginOpening (some cur) false
  | none => s.beginOpening (some cur) false

/-- The record chosen for a stream, and the alternation flag after (R18). -/
def State.serveStream (s : State) (x : Stream) (r : Record) : Answer :=
  let cur : InProgress := { stream := x, record := r, place := none, done := 0, failures := 0 }
  match x with
  | .commit => State.beginRecord { s with lw := { s.lw with commitReady := none, flag := .reclaim } } cur
  | .reclaim => State.beginRecord { s with lw := { s.lw with reclaimReady := none, flag := .commit } } cur

/-- The Log Writer chooses a record when it has none in progress and no opening (R18). -/
def State.serve (s : State) : Answer :=
  if s.accepting && s.lw.current.isNone && s.lw.opening.isNone then
    match s.lw.commitReady, s.lw.reclaimReady with
    | none, none => (s, [])
    | some r, none => s.serveStream .commit r
    | none, some r => s.serveStream .reclaim r
    | some rc, some rr =>
      match s.lw.flag with
      | .commit => s.serveStream .commit rc
      | .reclaim => s.serveStream .reclaim rr
  else (s, [])

/-- A requester offers its next record; it is refused at once while the Log Writer does not accept (R17, R18, R26). -/
def State.offer (s : State) (x : Stream) (r : Record) : Answer :=
  if s.accepting then
    match x with
    | .commit => ({ s with lw := { s.lw with commitReady := some r } }, [.serve])
    | .reclaim => ({ s with lw := { s.lw with reclaimReady := some r } }, [.serve])
  else (s, [.refused x s.writerStatus])

/-! ### Ends of programs -/

/-- The record in progress has a line verified: its next line is requested, or it is reported written (R19, R26). DESIGN
CHOICE (log 41): in READ-ONLY a commit's record before its last is reported written too, and counted, and the next one
is refused as it is offered. -/
def State.linePassed (s : State) (cur : InProgress) (loc : Loc) : Answer :=
  let cur1 := { cur with done := cur.done + 1 }
  if cur.record.lines ≤ cur1.done then
    (s.dropCurrent, [.written cur.stream cur.record loc, .serve])
  else if s.store.st = .readOnly ∧ !s.lw.stopped then s.refuseCurrent .readOnly
  else s.requestLine cur1 loc

/-- A line of the record in progress fails: the first failure seals early and rewrites, the second refuses ARRAY-FAULT
and seals early (R24, R25); while the Log Writer does not accept, the record is refused (R79, R80). -/
def State.lineFailed (s : State) (cur : InProgress) : Answer :=
  let s1 := s.raise .programFault
  if !s1.accepting then s1.refuseCurrent s1.writerStatus
  else if cur.failures = 0 then
    s1.beginOpening (some { cur with place := none, done := 0, failures := 1 }) true
  else
    let a := State.beginOpening s1.dropCurrent none true
    (a.1, .refused cur.stream .arrayFault :: a.2)

/-- A program has ended that no record and no opening waits for, a MOUNT or FORMAT having reset the Log Writer: a failed
verify still raises PROGRAM-FAULT (R115, R178; log 34). -/
def State.strayEnded (s : State) (v : Verify) : Answer :=
  (s.raiseIf (decide (v = .failed)) .programFault, [.serve])

/-- A line program of slot L has ended (R19, R24, R25). -/
def State.lineEnded (s : State) (v : Verify) : Answer :=
  match s.lw.current with
  | none => s.strayEnded v
  | some cur =>
    match cur.place with
    | none => (s, [])
    | some loc =>
      match v with
      | .passed => s.linePassed cur loc
      | .failed => s.lineFailed cur

/-- After an opening the waiting record is placed at line 2, or refused while the Log Writer does not accept (R20, R24,
R79). -/
def State.afterOpening (s : State) (p : AppendPoint) : Answer :=
  match s.lw.current with
  | none => (s, [.serve])
  | some cur => if s.accepting then s.placeRecord cur p else s.refuseCurrent s.writerStatus

/-- The old ACTIVE sector is sealed; the skipped lines of an ordinary sector change are charged to the waiting record's
stream (R20, R23, R28). -/
def State.sealOld (s : State) (early : Bool) : State :=
  match s.lw.point with
  | none => s
  | some p =>
    let s1 := s.modSector p.sector (SectorEntry.toSealed p.line)
    match s.lw.current with
    | some cur => if early then s1 else { s1 with lw := s1.lw.charge cur.stream (256 - p.line) }
    | none => s1

/-- The open stamp program of the opening in progress has ended (R20, R24, R28). -/
def State.openingEnded (s : State) (v : Verify) : Answer :=
  match s.lw.opening with
  | none => s.strayEnded v
  | some o =>
    match v with
    | .passed =>
      let p : AppendPoint := { sector := o.candidate, line := 2 }
      let s1 := (s.sealOld o.early).modSector o.candidate (SectorEntry.toActive o.activation o.openingSeq)
      State.afterOpening { s1 with lw := { s1.lw with opening := none, point := some p } } p
    | .failed =>
      let s1 := (s.raise .programFault).modSector o.candidate SectorEntry.toErasePending
      let s2 := { s1 with lw := { s1.lw with opening := none } }
      if s2.accepting then s2.beginOpening s2.lw.current o.early else s2.refuseCurrent s2.writerStatus

/-- The Log Writer's request in slot L has been refused: the opening ends with the candidate BLANK, the record is
refused (R20, R26, R28). -/
def State.writerRefused (s : State) (st : Status) : Answer :=
  State.refuseCurrent { s with lw := { s.lw with opening := none } } st

/-- The records ready on the streams are refused (R26). -/
def State.refuseReady (s : State) (st : Status) : Answer :=
  ({ s with lw := { s.lw with commitReady := none, reclaimReady := none } },
   (match s.lw.commitReady with | some _ => [.refused .commit st] | none => []) ++
   (match s.lw.reclaimReady with | some _ => [.refused .reclaim st] | none => []))

end Sys2Proof.Machine
end

