-- ==== Sys2Proof/Machine/Txn.lean ====
section
/-! DEFINITION. The Transaction Manager: the staging list, the commit in flight from its reservation to its end, and
the settings write (R61–R82, R168). -/

namespace Sys2Proof.Machine

/-! ### The staging list -/

/-- The staged operation of a key (R63). -/
def stagedFind : List Staged → Key → Option Staged
  | [], _ => none
  | o :: rest, k => if o.key = k then some o else stagedFind rest k

/-- A staged operation changed in its position (R63, R66, R67). -/
def stagedReplace : List Staged → Staged → List Staged
  | [], _ => []
  | o :: rest, n => if o.key = n.key then n :: rest else o :: stagedReplace rest n

/-- The list without a key's operation, closed up (R67). -/
def stagedRemove (l : List Staged) (k : Key) : List Staged :=
  l.filter (fun o => decide (o.key ≠ k))

/-- Bytes a staged operation adds (R63). -/
def Staged.bytes (o : Staged) : Nat :=
  match o.value with
  | some v => v.length
  | none => 0

/-- Staged keys without a directory entry (R65 check 7, R70 check 5). -/
def State.newStaged (s : State) : Nat :=
  (s.tm.staging.filter (fun o => s.isNew o.key)).length

/-- The staging list changed. -/
def State.setStaging (s : State) (l : List Staged) : State :=
  { s with tm := { s.tm with staging := l } }

/-! ### The commit in flight -/

/-- Lines of a staged operation's record (R71). -/
def Staged.lines (o : Staged) : Nat :=
  linesFor o.bytes

/-- The amount of a commit's reservation: R + 32 (R71). -/
def commitAmount (l : List Staged) : Nat :=
  (l.map Staged.lines).sum + (if 1 < l.length then 1 else 0) + Config.commitMargin

/-- Records of a commit of `n` operations, which is also the size of its sequence block (R73, R74). -/
def recordsOf (n : Nat) : Nat :=
  if n = 1 then 1 else n + 1

/-- The commit's record of an index counted from 0 (R74). -/
def State.commitRecordAt (s : State) (f : CommitFlight) (i : Nat) : Record :=
  match s.tm.staging[i]? with
  | some op => if f.n = 1 then op.record true 0 f.first else op.record false f.txn (f.first + i)
  | none => commitRecord f.n f.txn (f.first + f.n)

/-- The commit in flight changed. -/
def State.setCommit (s : State) (f : Option CommitFlight) : State :=
  { s with tm := { s.tm with commit := f } }

/-- The settings write changed. -/
def State.setSettingsWrite (s : State) (f : Option SettingsFlight) : State :=
  { s with tm := { s.tm with settings := f } }

/-- A commit that does not complete ends (R77). -/
def State.commitFail (s : State) (st : Status) : State :=
  match s.tm.commit with
  | none => s
  | some f =>
    let held := s.tm.held || decide (st = .powerFail) ||
      (decide (st = .readOnly) && decide (s.store.st ≠ .mounted))
    let s1 := s.clearMarks.releaseCommit
    State.finish { s1 with tm := { s1.tm with commit := none, held := held } } codeCommit st f.first f.written.length
      f.txn

/-- A settings write that does not complete ends (R82, R168). -/
def State.settingsFail (s : State) (st : Status) : State :=
  match s.tm.settings with
  | none => s
  | some f => (s.releaseCommit.setSettingsWrite none).finish codeSaveSettings st f.seq 0 0

/-- The directory takes the records written for the staged operations, sequences rising from `seq` (R54). -/
def State.takeCommit (s : State) : List Staged → List Loc → Nat → State
  | op :: ops, l :: ls, seq =>
    State.takeCommit (s.takeRecord op.key op.value.isSome l op.lines op.bytes seq) ops ls (seq + 1)
  | _, _, _ => s

/-- The commit completes (R76). -/
def State.commitComplete (s : State) (f : CommitFlight) : State :=
  let s1 := (s.takeCommit s.tm.staging f.written f.first).clearMarks.releaseCommit
  State.finish { s1 with tm := { s1.tm with staging := [], commit := none } } codeCommit .ok f.first (recordsOf f.n)
    f.txn

/-- The settings write completes (R55, R82). -/
def State.settingsComplete (s : State) (f : SettingsFlight) (l : Loc) : State :=
  let s1 := s.takeRecord Config.settingsKey true l (linesFor f.payload.length) f.payload.length f.seq
  (s1.releaseCommit.setSettingsWrite none).finish codeSaveSettings .ok f.seq 0 0

/-- A record of the commit stream is reported written (R75, R76, R82). -/
def State.commitWritten (s : State) (l : Loc) : Answer :=
  match s.tm.commit with
  | some f =>
    let f1 := { f with written := f.written ++ [l] }
    if recordsOf f.n ≤ f1.written.length then ((s.setCommit (some f1)).commitComplete f1, [])
    else (s.setCommit (some f1), [])
  | none =>
    match s.tm.settings with
    | some f => (s.settingsComplete f l, [])
    | none => (s, [])

/-- A record of the commit stream is refused (R77, R82). -/
def State.commitRefused (s : State) (st : Status) : Answer :=
  match s.tm.commit with
  | some _ => (s.commitFail st, [])
  | none => (s.settingsFail st, [])

/-- The commit's next record is offered to the commit stream (R75). -/
def State.offerCommit (s : State) (f : CommitFlight) : Answer :=
  State.offer (s.setCommit (some { f with nextIx := f.nextIx + 1 })) .commit (s.commitRecordAt f f.nextIx)

/-! ### Waiting for space -/

/-- A commit or a settings write is in WAITING-SPACE (R84). -/
def State.spaceWaiter (s : State) : Bool :=
  (match s.tm.commit with | some f => decide (f.phase = .waitingSpace) | none => false) ||
  (match s.tm.settings with | some f => decide (f.phase = .waitingSpace) | none => false)

/-- Whoever waits for space ends with a status (R72). -/
def State.failWaiter (s : State) (st : Status) : State :=
  let s1 : State := match s.tm.commit with
    | some f => if f.phase = .waitingSpace then s.commitFail st else s
    | none => s
  match s1.tm.settings with
  | some f => if f.phase = .waitingSpace then s1.settingsFail st else s1
  | none => s1

/-- A reservation that is not granted: the wait goes on under AUTO-RECLAIM 1 and ends NO-SPACE under 0 (R71). -/
def State.notGranted (s : State) : Answer :=
  if s.settings.autoReclaim = 0 then (s.failWaiter .noSpace, []) else (s, [])

/-- The sequence block of a commit whose reservation is granted (R73). A refused block moves the store to READ-ONLY,
which ends the commit. -/
def State.commitGranted (s : State) (f : CommitFlight) : Answer :=
  match (s.reserveCommit f.amount).takeSeq (recordsOf f.n) with
  | (none, s1) => (s1, [.leaveMounted .sequence])
  | (some first, s1) =>
    if f.n = 1 then s1.offerCommit { f with phase := .writing, first := first }
    else
      State.offerCommit { s1 with lw := { s1.lw with txnCtr := nextTxn s1.lw.txnCtr } }
        { f with phase := .writing, first := first, txn := s1.lw.txnCtr }

/-- Lines a settings write asks for: 5 + 32 (R22, R82). -/
def settingsAmount : Nat := 5 + Config.commitMargin

/-- The sequence number of a settings write whose reservation is granted (R82). -/
def State.settingsGranted (s : State) (f : SettingsFlight) : Answer :=
  match (s.reserveCommit settingsAmount).takeSeq 1 with
  | (none, s1) => (s1, [.leaveMounted .sequence])
  | (some seq, s1) =>
    State.offer (s1.setSettingsWrite (some { f with phase := .writing, seq := seq })) .commit
      (settingsRecord f.payload seq)

/-- The reservation request of a waiting commit or settings write (R71, R82). -/
def State.requestSpace (s : State) : Answer :=
  match s.tm.commit with
  | some f =>
    if f.phase = .waitingSpace then
      if s.commitRoom f.amount then s.commitGranted f else s.notGranted
    else (s, [])
  | none =>
    match s.tm.settings with
    | some f =>
      if f.phase = .waitingSpace then
        if s.commitRoom settingsAmount then s.settingsGranted f else s.notGranted
      else (s, [])
    | none => (s, [])

end Sys2Proof.Machine
end

