-- ==== Sys2Proof/Machine/Reclaim.lean ====
section
/-! DEFINITION. The Reclaim Engine: reasons, units, the walk of a victim, ending, erasing, stamping, retiring, and the
stalled condition (R83–R102). -/

namespace Sys2Proof.Machine

/-! ### Small changes of the engine -/

/-- The engine's own state. -/
def State.setEngine (s : State) (st : EngineState) : State :=
  { s with eng := { s.eng with st := st } }

/-- The cursor advances; read attempts return to 0 (R88). -/
def State.advance (s : State) (p : Nat) : State :=
  { s with eng := { s.eng with cursor := p, attempts := 0, firstRef := none } }

/-- The status with which a unit ends once the store is no longer MOUNTED (R100). DESIGN CHOICE (log 39): a unit that
stops in READ-ONLY without any record or program of its own refused ends READ-ONLY too. -/
def State.haltStatus (s : State) : Option Status :=
  match s.store.st with
  | .mounted => none
  | .powerHold => some .powerFail
  | _ => some .readOnly

/-- The status of a unit whose work ended well: POWER-FAIL once PFAIL# has been asserted (R100; log 24). -/
def State.orPowerFail (s : State) (st : Status) : Status :=
  if s.store.st = .powerHold then .powerFail else st

/-! ### Retiring (R41, R95) -/

/-- The retirement of a sector completes, with or without its RETIRE location; the unit then ends (R41, R42, R95). -/
def State.retireDone (s : State) (i : SectorIx) (loc : Option Loc) (refusal : Option Status) : Answer :=
  let unitStatus :=
    match refusal, s.eng.cause with
    | some .powerFail, _ => .powerFail
    | some .readOnly, _ => .readOnly
    | _, .endurance => s.orPowerFail .ok
    | _, .eraseFault => s.orPowerFail .arrayFault
  let s1 := (s.modSector i (SectorEntry.toRetired loc)).raise .sectorRetired
  let s2 := match loc with
    | some l => s1.modSector l.sector (SectorEntry.takeLines 1)
    | none => s1
  (s2, (if 32 - s2.retiredCount < Config.minUsableSectors then [.leaveMounted .retirement] else []) ++
       [.unitEnd unitStatus false])

/-- RETIRING begins: a unit without a reservation asks for one of 18 lines, one sequence number is taken and RETIRE is
offered (R95). -/
def State.beginRetiring (s : State) (i : SectorIx) (cause : RetireCause) : Answer :=
  let s1 := { s with eng := { s.eng with st := .retiring, cause := cause } }
  let s2 := if s1.reclaimRoom Config.passMargin then s1.reserveReclaim Config.passMargin else s1
  match s2.takeSeq 1 with
  | (none, s3) =>
    let a := s3.retireDone i none (some .readOnly)
    (a.1, .leaveMounted .sequence :: a.2)
  | (some n, s3) => s3.offer .reclaim (retireRecord i n)

/-! ### Erasing (R93) -/

/-- The erase of a sector is placed in slot C and the sector becomes ERASING; a refusal leaves it ERASE-PENDING and
ends the unit (R29, R93, R112). -/
def State.beginErasing (s : State) (i : SectorIx) : Answer :=
  match State.place ((s.setEngine .erasing).modSector i SectorEntry.toErasing) .c (.erase i) with
  | (s1, none) => (s1, [])
  | (s1, some st) => (s1.modSector i SectorEntry.toErasePending, [.unitEnd st false])

/-- A sector that is ERASE-PENDING is erased, or retired at the endurance limit (R39, R92, R97). -/
def State.eraseOrRetire (s : State) (i : SectorIx) : Answer :=
  if Config.enduranceLimit ≤ (s.sector i).eraseCount then s.beginRetiring i .endurance else s.beginErasing i

/-- The erase of slot C has ended (R93). -/
def State.eraseEnded (s : State) (i : SectorIx) (v : Verify) : Answer :=
  match v with
  | .passed =>
    let s1 := s.modSector i SectorEntry.raiseCount
    match State.place (s1.setEngine .stamping) .c
        (.program i 0 (eraseStampLine s.store.generation (s1.sector i).eraseCount)) with
    | (s2, none) => (s2, [])
    | (s2, some st) => (s2.modSector i SectorEntry.toErasePending, [.unitEnd st false])
  | .failed => ((s.modSector i SectorEntry.toErasePending).raise .eraseFault).beginRetiring i .eraseFault

/-- The erase stamp program of slot C has ended (R94). -/
def State.stampEnded (s : State) (i : SectorIx) (v : Verify) : Answer :=
  match v with
  | .passed =>
    (s.modSector i (SectorEntry.toBlank s.store.generation), [.unitEnd (s.orPowerFail .ok) false])
  | .failed =>
    ((s.modSector i SectorEntry.toErasePending).raise .programFault, [.unitEnd (s.orPowerFail .arrayFault) false])

/-! ### The walk (R88–R92) -/

/-- The walk goes on: the next READ is placed, or RECLAIM-END is offered at the end of the record area; once the store
is not MOUNTED the unit ends (R88, R92, R100). -/
def State.walk (s : State) (v : SectorIx) : Answer :=
  match s.haltStatus with
  | some st => (s, [.unitEnd st false])
  | none =>
    if s.eng.cursor < 256 then
      ((s.place .c (.readRecord v s.eng.cursor .header)).1, [])
    else
      match s.takeSeq 1 with
      | (none, s1) => (s1, [.leaveMounted .sequence, .unitEnd .readOnly false])
      | (some n, s1) => (s1.setEngine .ending).offer .reclaim (reclaimEndRecord v s.eng.copyCount n)

/-- What refers to a place: an entry, or a RETIRE location of the retired list (R88). -/
def State.refAt (s : State) (l : Loc) : Option LineRef :=
  match s.entryAt l with
  | some e => some (.entry e.key e.seq e.lines)
  | none => (s.retiredAt l).map LineRef.retireLoc

/-- The sector index a marker record names. -/
def Record.named (r : Record) : SectorIx :=
  ⟨r.operand % 32, Nat.mod_lt _ (by decide)⟩

/-- Whether a valid record read at a place is copied (R89). -/
def State.copies (s : State) (l : Loc) (r : Record) : Bool :=
  match r.kind with
  | .value =>
    (match s.entryAt l with | some e => decide (e.seq = r.seq) | none => false)
  | .tombstone =>
    (match s.entryAt l with
     | some e => !e.present && decide (e.seq = r.seq) && (!s.isOldest l.sector || e.stale)
     | none => false)
  | .retire => (s.retiredAt l).isSome
  | .commit => s.entryOutside l.sector (r.seq - r.operand) r.seq
  | .reclaimEnd => decide ((s.sector r.named).st = .retired) && (s.sector r.named).retireLoc.isNone
  | .reclaimBegin => false

/-- Whether a valid record read at a place is a tombstone to be dropped (R57, R89). -/
def State.drops (s : State) (l : Loc) (r : Record) : Bool :=
  decide (r.kind = .tombstone) &&
    (match s.entryAt l with
     | some e => !e.present && decide (e.seq = r.seq) && s.isOldest l.sector && !e.stale
     | none => false)

/-- A valid record read by the walk (R89, R90). -/
def State.walkRecord (s : State) (l : Loc) (r : Record) : Answer :=
  if s.copies l r then s.offer .reclaim r.copy
  else if s.drops l r then ((s.dropTombstone r.key r.seq).advance (l.line + r.lines)).walk l.sector
  else (s.advance (l.line + r.lines)).walk l.sector

/-- The second failed read of a line (R91). -/
def State.walkLost (s : State) (l : Loc) : Answer :=
  match s.eng.firstRef with
  | some (.entry k seq m) => (((s.loseRecord k seq).raise .readFault).advance (l.line + m)).walk l.sector
  | some (.retireLoc named) =>
    let s1 := if (s.sector named).retireLoc = some l then
        (s.modSector named (fun e => { e with retireLoc := none })).modSector l.sector (SectorEntry.giveLines 1)
      else s
    ((s1.raise .readFault).advance (l.line + 1)).walk l.sector
  | none => (s.advance (l.line + 1)).walk l.sector

/-- The READ of the walk has ended with a result (R88). -/
def State.walkRead (s : State) (v : SectorIx) (rr : ReadResult) : Answer :=
  let l : Loc := { sector := v, line := s.eng.cursor }
  if isBlankLine rr.bytes && (s.refAt l).isNone then (s.advance (l.line + 1)).walk v
  else
    match validRecordAt l.line rr with
    | some r => s.walkRecord l r
    | none =>
      if s.eng.attempts = 0 then
        State.walk { s with eng := { s.eng with attempts := 1, firstRef := s.refAt l } } v
      else s.walkLost l

/-- A copy is reported written at a place (R90). -/
def State.copyWritten (s : State) (v : SectorIx) (r : Record) (x : Loc) : Answer :=
  let l : Loc := { sector := v, line := s.eng.cursor }
  let s1 := { s with eng := { s.eng with
    copyCount := s.eng.copyCount + 1, copiedLines := s.eng.copiedLines + r.lines } }
  let s2 :=
    match r.kind with
    | .value => s1.relocate r.key r.seq x
    | .tombstone => s1.relocate r.key r.seq x
    | .retire =>
      match s1.retiredAt l with
      | some named =>
        ((s1.modSector named (fun e => { e with retireLoc := some x })).modSector x.sector
          (SectorEntry.takeLines 1)).modSector v (SectorEntry.giveLines 1)
      | none => s1
    | _ => s1
  (s2.advance (l.line + r.lines)).walk v

/-! ### Reports from the Log Writer -/

/-- A record of the reclaim stream is reported written (R87, R90, R92, R95). DESIGN CHOICE (log 40): a RECLAIM-END
written once the store has left MOUNTED leaves its sector ERASE-PENDING with no erase placed, so that its activation
number and opening sequence stand. -/
def State.reclaimWritten (s : State) (r : Record) (x : Loc) : Answer :=
  match s.eng.sector with
  | none => (s, [])
  | some v =>
    match s.eng.st with
    | .beginning =>
      let s1 := s.modSector v (fun e => { e with st := .reclaiming })
      State.walk { s1 with eng := { s1.eng with
        st := .copying, cursor := 2, attempts := 0, firstRef := none, copyCount := 0, copiedLines := 0 } } v
    | .copying => s.copyWritten v r x
    | .ending =>
      let s1 := s.modSector v SectorEntry.toErasePending
      match s1.haltStatus with
      | some st => (s1, [.unitEnd st false])
      | none => s1.eraseOrRetire v
    | .retiring => s.retireDone v (some x) none
    | _ => (s, [])

/-- A record of the reclaim stream is refused (R87, R90, R92, R95). -/
def State.reclaimRefused (s : State) (st : Status) : Answer :=
  match s.eng.sector with
  | none => (s, [])
  | some v =>
    match s.eng.st with
    | .beginning => (s, [.unitEnd st false])
    | .copying => (s, [.unitEnd st (decide (st = .noSpace))])
    | .ending => (s, [.unitEnd st (decide (st = .noSpace))])
    | .retiring => s.retireDone v none (some st)
    | _ => (s, [])

/-- The engine's request in slot C has been refused or its erase abandoned: the sector is ERASE-PENDING and the unit
ends (R30, R93, R94, R100). -/
def State.engineRefused (s : State) (st : Status) : Answer :=
  match s.eng.sector with
  | none => (s, [])
  | some v =>
    match s.eng.st with
    | .erasing => (s.modSector v SectorEntry.toErasePending, [.unitEnd st false])
    | .stamping => (s.modSector v SectorEntry.toErasePending, [.unitEnd st false])
    | _ => (s, [])

/-! ### Choosing and starting a unit (R84–R87, R96, R97) -/

/-- The automatic reason (R84). -/
def State.automaticReason (s : State) : Bool :=
  decide (s.settings.autoReclaim = 1) && decide (s.blankCount < s.settings.threshold)

/-- The waiting reason (R84). -/
def State.waitingReason (s : State) : Bool :=
  decide (s.settings.autoReclaim = 1) && s.spaceWaiter

/-- The pending reason (R84). -/
def State.pendingReason (s : State) : Bool :=
  decide (s.settings.autoReclaim = 1) &&
    (decide (s.sectorsIn .erasePending ≠ []) || decide (s.sectorsIn .reclaiming ≠ []))

/-- The lines a pass over a sector reserves: L + 18 (R22). -/
def State.passAmount (s : State) (v : SectorIx) : Nat :=
  (s.sector v).live + Config.passMargin

/-- The victim: of the eligible sectors the one with the fewest live lines, ties to the oldest (R86). -/
def State.victim (s : State) : Option SectorIx :=
  bestOf
    (fun a b => decide ((s.sector a).live < (s.sector b).live) ||
      (decide ((s.sector a).live = (s.sector b).live) && s.older a b))
    (allSectors.filter (fun i => s.reclaimable i && s.reclaimRoom (s.passAmount i)))

/-- The unit R85 takes, when one can be started. -/
def State.unitChoice (s : State) : Option (UnitKind × SectorIx) :=
  match s.sectorsIn .erasePending with
  | i :: _ => some (.pendingErase, i)
  | [] =>
    match s.sectorsIn .reclaiming with
    | i :: _ => if s.reclaimRoom (s.passAmount i) then some (.resumedPass, i) else none
    | [] => s.victim.map (fun v => (UnitKind.pass, v))

/-- The engine as a unit starts (R87, R96, R97). -/
def Engine.forUnit (e : Engine) (st : EngineState) (k : UnitKind) (i : SectorIx) (o : Owner) : Engine :=
  { e with st := st, unit := some k, sector := some i, cursor := 2, attempts := 0, firstRef := none, copyCount := 0,
           copiedLines := 0, owner := o }

/-- A unit is started (R87, R96, R97). -/
def State.startUnit (s : State) (k : UnitKind) (i : SectorIx) (o : Owner) : Answer :=
  match k with
  | .pendingErase =>
    State.eraseOrRetire { s with eng := s.eng.forUnit .erasing .pendingErase i o } i
  | .resumedPass =>
    State.walk { (s.reserveReclaim (s.passAmount i)) with eng := s.eng.forUnit .copying .resumedPass i o } i
  | .pass =>
    match State.takeSeq
        { (s.reserveReclaim (s.passAmount i)) with eng := s.eng.forUnit .beginning .pass i o } 1 with
    | (none, s1) => (s1, [.leaveMounted .sequence, .unitEnd .readOnly false])
    | (some n, s1) => s1.offer .reclaim (reclaimBeginRecord i n)

/-- STALLED is set, and RECLAIM-STALLED raised when it was clear (R99). -/
def State.setStalled (s : State) : State :=
  let s1 := s.raiseIf (!s.eng.stalled) .reclaimStalled
  { s1 with eng := { s1.eng with stalled := true } }

/-- The engine finds no unit: STALLED under the automatic or the waiting reason, and a waiter ends NO-SPACE (R72,
R99). -/
def State.noUnit (s : State) : State :=
  let s1 := if s.automaticReason || s.waitingReason then s.setStalled else s
  if s.waitingReason then s1.failWaiter .noSpace else s1

/-- The engine looks for work, when it is IDLE and the store MOUNTED (R84, R85, R99). -/
def State.lookForWork (s : State) : Answer :=
  if decide (s.store.st = .mounted) && decide (s.eng.st = .idle) &&
     (s.automaticReason || s.waitingReason || s.pendingReason) then
    match s.unitChoice with
    | some (k, i) => s.startUnit k i .automatic
    | none => (s.noUnit, [])
  else (s, [])

/-! ### The end of a unit (R98) -/

/-- Lines freed: 254 less the lines copied when the sector is BLANK, 0 otherwise (R98). -/
def State.linesFreed (s : State) (v : SectorIx) : Nat :=
  if (s.sector v).st = .blank then Config.recordAreaLines - s.eng.copiedLines else 0

/-- STALLED at a unit's end: cleared when its sector is BLANK, set when room was wanting (R99). -/
def State.stallAtEnd (s : State) (v : SectorIx) (noBlank : Bool) : State :=
  if (s.sector v).st = .blank then { s with eng := { s.eng with stalled := false } }
  else if noBlank then s.setStalled
  else s

/-- The result is recorded and the engine becomes IDLE (R83, R98). -/
def Engine.idleWith (e : Engine) (r : UnitResult) : Engine :=
  { Engine.reset with stalled := e.stalled, cause := e.cause, lastResult := some r }

/-- The happenings after a unit's end in MOUNTED: a waiter's request and the engine's search, in either order (R71,
R84, R98). -/
def State.afterUnit (s : State) : Answer :=
  if s.store.st = .mounted then
    if s.spaceWaiter then
      (s.drawOrder.2, if s.drawOrder.1 then [.look, .request] else [.request, .look])
    else (s, [.look])
  else (s, [])

/-- A unit ends (R98). -/
def State.endUnit (s : State) (st : Status) (noBlank : Bool) : Answer :=
  match s.eng.sector with
  | none => (s, [])
  | some v =>
    let result : UnitResult :=
      { status := st, sector := v, copyCount := s.eng.copyCount, linesFreed := s.linesFreed v }
    let s1 := (s.stallAtEnd v noBlank).releaseReclaim
    let s2 := match s.eng.owner with
      | .automatic => s1
      | .command _ => s1.finish codeReclaim st result.linesFreed v.val result.copyCount
    State.afterUnit { s2 with eng := s2.eng.idleWith result }

end Sys2Proof.Machine
end

