-- ==== Sys2Proof/Machine/Cascade.lean ====
section
/-! DEFINITION. The internal happenings of one step, one after another until none is left, and the grants that close them
(R98, R107, R119; spec/95_what_each_step_holds.md; logs 9, 10, 11). -/

namespace Sys2Proof.Machine

/-- The slots of the Log Writer and the engine whose waiting PROGRAM or ERASE the write bar refuses (R112–R114). -/
def State.barred (s : State) (st : Status) : List Signal :=
  (if s.arr.waitingWrite .l then [.slotRefused .l st] else []) ++
  (if s.arr.waitingWrite .c then [.slotRefused .c st] else [])

/-- Every waiting PROGRAM and ERASE is refused as the write bar comes to hold (R112). -/
def State.refuseWaiting (s : State) (st : Status) : Answer :=
  (((s.dropWaiting .l).dropWaiting .c).dropWaiting .m, s.barred st)

/-- Staging held is set when the store leaves MOUNTED with the list not empty (R69). -/
def State.holdStaging (s : State) : State :=
  { s with tm := { s.tm with held := s.tm.held || decide (s.tm.staging ≠ []) } }

/-- The store leaves MOUNTED for READ-ONLY (R119): waiting programs and erases and ready records are refused, whoever
waits for space ends READ-ONLY (R80, R114), the staging list is held. DESIGN CHOICE (log 36): where a commit or a
settings write and a RECLAIM unit both end here, R80 and R119 give their completions no order; the model posts first
that of the one that waits for space, then what follows from slot L, from slot C and from the ready records. -/
def State.leaveForReadOnly (s : State) (cause : Cause) : Answer :=
  if s.store.st = .mounted then
    let s1 := State.holdStaging { s with store := { s.store with st := .readOnly, cause := cause, dirValid := true } }
    let a := s1.refuseWaiting .readOnly
    let b := a.1.refuseReady .readOnly
    (b.1.failWaiter .readOnly, a.2 ++ b.2)
  else (s, [])

/-- What a slot's refusal brings about at its requester (R115). -/
def State.slotRefused (s : State) (x : SlotId) (st : Status) : Answer :=
  match x with
  | .l => s.writerRefused st
  | .c => s.engineRefused st
  | .h => (s, [])
  | .m => (s, [])

/-- One internal happening. A happening of its own finds granted what those before it have placed (R107; log 10). -/
def State.handle (s : State) : Signal → Answer
  | .slotRefused x st => s.slotRefused x st
  | .written .commit _ l => s.commitWritten l
  | .written .reclaim r l => s.reclaimWritten r l
  | .refused .commit st => s.commitRefused st
  | .refused .reclaim st => s.reclaimRefused st
  | .serve => s.serve
  | .request => s.grant.requestSpace
  | .unitEnd st noBlank => s.endUnit st noBlank
  | .leaveMounted cause => s.leaveForReadOnly cause
  | .look => s.grant.lookForWork

/-- New happenings among those that wait: before them what belongs to the happening at hand, behind them the
happenings of their own (R98, R107). -/
def queued (new gs : List Signal) : List Signal :=
  new.filter (fun g => !g.isApart) ++ (gs ++ new.filter Signal.isApart)

/-- The happenings one after another, with what each brings about; none when more than `n` come about. -/
def drain : Nat → List Signal → State → Option State
  | _, [], s => some s
  | 0, _ :: _, _ => none
  | n + 1, g :: gs, s => drain n (queued (s.handle g).2 gs) (s.handle g).1

/-- An answer's happenings, until none is left (log 11). -/
def settle (a : Answer) : Option State :=
  drain Config.cascadeBound (queued a.2 []) a.1

/-- A step's end: its happenings, the engine's look for work where something has changed (R84), and the grant (R107). -/
def conclude (a : Answer) : Host.Outcome State Fault Refusal :=
  match (settle a).bind (drain Config.cascadeBound [.look]) with
  | some s => .next s.grant
  | none => .fault .unsettled

end Sys2Proof.Machine
end

