-- ==== Sys2Proof/Machine/Mount.lean ====
section
/-! DEFINITION. The mount: its six phases STAMPS, RECORDS, RESOLVE, BUILD, LOAD and OPEN, its ends and its abort
(R118, R121–R133, R147, R170). -/

namespace Sys2Proof.Machine

/-! ### Slot M -/

/-- The Store Controller's request is placed in slot M. While a request of an abandoned mount or format is still there,
nothing is placed (log 18). -/
def State.placeM (s : State) (purpose : MPurpose) (op : ArrayOp) : State :=
  match s.arr.m with
  | some _ => s
  | none =>
    match s.place .m op with
    | (s1, none) => { s1 with store := { s1.store with req := some { purpose := purpose, abandoned := false } } }
    | (s1, some _) => s1

/-- The request of slot M has ended and its outcome is the Store Controller's. -/
def State.releaseM (s : State) : State :=
  let s1 := s.release .m
  { s1 with store := { s1.store with req := none } }

/-- The request of STAMPS for a sector (R122). -/
def State.placeStamp (s : State) (i : SectorIx) : State :=
  s.placeM (.mountStamp i) (.readLines i 0 2)

/-- The mount scan changed. -/
def State.setScan (s : State) (c : MountScan) : State :=
  { s with store := { s.store with scan := c } }

/-! ### Beginning and ends -/

/-- The code of a mount result (R117). -/
def MountResult.code : MountResult → Nat
  | .none => 0
  | .clean => 1
  | .repaired => 2
  | .unformatted => 3
  | .aborted => 4

/-- A mount ends: the store state and the result are set and a MOUNT command in flight posts its completion (R131,
R133). -/
def State.mountEnds (s : State) (st : StoreState) (result : MountResult) (status : Status) (b c : Nat) : State :=
  let s1 := { s with store := { s.store with
    st := st, result := result, mount := none, scan := MountScan.empty,
    dirValid := decide (st = .mounted) || decide (st = .readOnly) } }
  match s.store.mount with
  | some (.command _) => s1.finish codeMount status result.code b c
  | _ => s1

/-- Slot M as an abort leaves it: a request in progress goes on and a READ that waits is still served, both abandoned; a
PROGRAM or ERASE that waits is gone (R112, R113; log 18). -/
def State.dropM (s : State) : State :=
  let keep := match s.arr.m with | some r => r.inProgress || !r.op.isWrite | none => false
  if keep then
    { s with store := { s.store with req := s.store.req.map (fun q => { q with abandoned := true }) } }
  else
    { s with store := { s.store with req := none }, arr := { s.arr with m := none } }

/-- PFAIL# aborts a mount (R132). -/
def State.mountAborts (s : State) : State :=
  (s.mountEnds .powerHold .aborted .powerFail 0 0).dropM

/-- A mount begins (R121); while PFAIL# is asserted it is aborted at once (R132). -/
def State.beginMount (s : State) (owner : MountOwner) : State :=
  let s0 := s.resetSectors
  let s1 := { s0 with
    dir := []
    lw := LogWriter.reset
    eng := Engine.reset
    tm := { s0.tm with staging := [], held := false }
    store := { s0.store with
      st := .mounting, cause := .none, dirValid := false, phase := .stamps, result := .none, generation := 0,
      mount := some owner, scan := MountScan.empty } }
  if s1.pins.pfailLow then s1.mountAborts else s1.placeStamp 0

/-! ### STAMPS (R122, R123) -/

/-- The two lines of a sector judged (R3, R4, R122). -/
def judgeStamps (bs : List Byte) : StampRead :=
  { erase := validEraseStamp (bs.take 16), opening := judgeOpenStamp (bs.drop 16) }

/-- The highest generation among the valid erase stamps, 0 without one (R122). -/
def highestGeneration (l : List StampRead) : Nat :=
  l.foldl (fun g x => match x.erase with | some (h, _) => max g h | none => g) 0

/-- The highest erase count among the valid erase stamps, 0 without one (R40). -/
def highestEraseCount (l : List StampRead) : Nat :=
  l.foldl (fun g x => match x.erase with | some (_, n) => max g n | none => g) 0

/-- The class of a sector (R123). -/
inductive SectorClass where
  | erasePending
  | blank
  | opened (activation : Nat) (openingSeq : Nat)
  deriving DecidableEq, Repr

/-- The class of a sector from its stamps and the current generation (R123). -/
def classify (generation : Nat) (x : StampRead) : SectorClass :=
  match x.erase with
  | none => .erasePending
  | some (g, _) =>
    if g < generation then .erasePending
    else match x.opening with
      | .blank => .blank
      | .valid a q => .opened a q
      | .invalid => .erasePending

/-- The stamps of a sector in the scan; a sector not read counts as one without a valid stamp. -/
def MountScan.stampOf (c : MountScan) (i : SectorIx) : StampRead :=
  c.stamps.getD i.val { erase := none, opening := .invalid }

/-- The entry of a sector as STAMPS leaves it (R123). An opened sector keeps the state of its reset entry until BUILD
(log 16). -/
def stampEntry (generation estimate : Nat) (x : StampRead) : SectorEntry :=
  let count := match x.erase with | some (_, n) => n | none => estimate
  let gen := match x.erase with | some (g, _) => g | none => 0
  match classify generation x with
  | .erasePending => { SectorEntry.reset with eraseCount := count, generation := gen }
  | .blank => { SectorEntry.reset with st := .blank, eraseCount := count, generation := gen }
  | .opened a q =>
    { SectorEntry.reset with eraseCount := count, generation := gen, activation := a, openingSeq := q }

/-- Whether a sector is opened in the scan (R123). -/
def State.isOpened (s : State) (i : SectorIx) : Bool :=
  match classify s.store.generation (s.store.scan.stampOf i) with
  | .opened _ _ => true
  | _ => false

/-- A sector put into a list in activation order (R123, R124). -/
def State.insertByAge (s : State) (i : SectorIx) : List SectorIx → List SectorIx
  | [] => [i]
  | j :: rest => if s.older i j then i :: j :: rest else j :: State.insertByAge s i rest

/-- The opened sectors in ascending activation order (R124). -/
def State.openedByAge (s : State) : List SectorIx :=
  (allSectors.filter s.isOpened).foldr s.insertByAge []

/-- No valid erase stamp: the mount ends UNFORMATTED (R122). DEDUCED (log 37): the counts of 0 that R122 gives are no
estimates of R40, so MOUNT-REPAIRED is not raised. -/
def State.unformatted (s : State) : State :=
  State.mountEnds { s with
    dir := []
    sectors := Vector.replicate 32 SectorEntry.reset
    settings := Settings.factory
    guards := clearUnfixed s.guards
    store := { s.store with generation := 0 } } .unmounted .unformatted .unformatted 0 0

/-! ### RESOLVE (R125–R127) -/

/-- Whether a RETIRE record describes the present contents of the sector it names (R125). -/
def State.retires (s : State) (i : SectorIx) (r : ScanRec) : Bool :=
  decide (r.kind = .retire) && decide (r.operand = i.val) &&
    (!s.isOpened i || decide ((s.sector i).openingSeq < r.seq))

/-- The sectors R125 makes RETIRED. -/
def State.retiredByLog (s : State) (recs : List ScanRec) : List SectorIx :=
  allSectors.filter (fun i => recs.any (s.retires i))

/-- Records in the sectors of a list. -/
def recsIn (l : List SectorIx) (recs : List ScanRec) : List ScanRec :=
  recs.filter (fun r => l.contains r.loc.sector)

/-- The RETIRE record that gives a retired sector its location: highest sequence, then the newer sector, then the
higher line (R125). -/
def State.retireChoice (s : State) (i : SectorIx) (recs : List ScanRec) : Option Loc :=
  (bestOf
    (fun a b => decide (b.seq < a.seq) ||
      (decide (a.seq = b.seq) &&
        (s.older b.loc.sector a.loc.sector ||
          (decide (a.loc.sector = b.loc.sector) && decide (b.loc.line < a.loc.line)))))
    (recs.filter (fun r => decide (r.kind = .retire) && decide (r.operand = i.val)))).map ScanRec.loc

/-- Whether a RECLAIM-END makes an opened sector ERASE-PENDING (R126). -/
def State.endedByLog (s : State) (recs : List ScanRec) (i : SectorIx) : Bool :=
  recs.any (fun r => decide (r.kind = .reclaimEnd) && decide (r.operand = i.val) &&
    decide ((s.sector i).openingSeq < r.seq))

/-- Whether a RECLAIM-BEGIN without a later RECLAIM-END leaves an opened sector RECLAIMING (R126). -/
def State.begunByLog (s : State) (recs : List ScanRec) (i : SectorIx) : Bool :=
  recs.any (fun b => decide (b.kind = .reclaimBegin) && decide (b.operand = i.val) &&
    decide ((s.sector i).openingSeq < b.seq) &&
    !recs.any (fun e => decide (e.kind = .reclaimEnd) && decide (e.operand = i.val) && decide (b.seq < e.seq)))

/-- Whether a COMMIT record of the list validates a record (R14, R127). -/
def validatedBy (recs : List ScanRec) (r : ScanRec) : Bool :=
  recs.any (fun c => decide (c.kind = .commit) && decide (c.txn = r.txn) && decide (r.seq < c.seq) &&
    decide (c.seq ≤ r.seq + c.operand))

/-- A VALUE or a TOMBSTONE. -/
def ScanRec.isData (r : ScanRec) : Bool :=
  decide (r.kind = .value) || decide (r.kind = .tombstone)

/-- What RESOLVE leaves of the log. -/
structure Resolved where
  /-- Sectors made RETIRED (R125). -/
  retired : List SectorIx
  /-- Opened sectors made ERASE-PENDING (R126). -/
  ended : List SectorIx
  /-- Opened sectors that remain. -/
  remaining : List SectorIx
  /-- Of these, the RECLAIMING ones (R126). -/
  reclaiming : List SectorIx
  /-- Records of the sectors not retired, among which a RETIRE location is found (R125). -/
  notRetired : List ScanRec
  /-- The committed VALUE and TOMBSTONE records (R127). -/
  committed : List ScanRec
  /-- A repair was found (R126, R127). -/
  repair : Bool
  deriving DecidableEq, Repr

/-- RESOLVE: retirement, reclaim markers, transactions, in this order (R125–R127; log 22). -/
def State.resolve (s : State) : Resolved :=
  let recs := s.store.scan.recs
  let retired := s.retiredByLog recs
  let kept := (allSectors.filter s.isOpened).filter (fun i => !retired.contains i)
  let recs1 := recsIn kept recs
  let ended := kept.filter (s.endedByLog recs1)
  let remaining := kept.filter (fun i => !ended.contains i)
  let recs2 := recsIn remaining recs1
  let reclaiming := remaining.filter (s.begunByLog recs2)
  let data := recs2.filter ScanRec.isData
  let committed := data.filter (fun r => r.solo || validatedBy recs2 r)
  { retired := retired, ended := ended, remaining := remaining, reclaiming := reclaiming, notRetired := recs1,
    committed := committed
    repair := !ended.isEmpty || !reclaiming.isEmpty || decide (committed.length < data.length) }

/-! ### BUILD (R128, R129) -/

/-- Whether a record is taken rather than another of its key: higher sequence, then the newer sector, then the higher
line (R15, R128). -/
def State.preferred (s : State) (a b : ScanRec) : Bool :=
  decide (b.seq < a.seq) ||
    (decide (a.seq = b.seq) &&
      (s.older b.loc.sector a.loc.sector ||
        (decide (a.loc.sector = b.loc.sector) && decide (b.loc.line < a.loc.line))))

/-- A record put among the records chosen so far, in key order. -/
def State.choose (s : State) : List ScanRec → ScanRec → List ScanRec
  | [], r => [r]
  | x :: rest, r =>
    if x.key < r.key then x :: State.choose s rest r
    else if x.key = r.key then (if s.preferred r x then r :: rest else x :: rest)
    else r :: x :: rest

/-- The entry of a chosen record; for a tombstone the stale-copy mark (R128). -/
def State.entryOf (s : State) (committed : List ScanRec) (r : ScanRec) : DirEntry :=
  { key := r.key, present := decide (r.kind = .value), loc := r.loc, lines := r.lines, length := r.length, seq := r.seq
    stale := decide (r.kind = .tombstone) &&
      committed.any (fun x => decide (x.key = r.key) && decide (x.seq < r.seq) &&
        s.older r.loc.sector x.loc.sector) }

/-- The directory within its 1024 entries: the settings key first, then the lowest user keys (R59, R128). -/
def withinCapacity (d : List DirEntry) : List DirEntry :=
  if d.length ≤ Config.directoryCapacity then d
  else match dirFind d Config.settingsKey with
    | some e => (d.filter (fun x => decide (x.key ≠ Config.settingsKey))).take (Config.directoryCapacity - 1) ++ [e]
    | none => d.take Config.directoryCapacity

/-- The newest of the remaining opened sectors that are not RECLAIMING (R129). -/
def State.newestOf (s : State) (l : List SectorIx) : Option SectorIx :=
  bestOf (fun a b => s.older b a) l

/-- The append point the scan found in a sector (R124). -/
def MountScan.appendOf (c : MountScan) (i : SectorIx) : Nat :=
  match c.appendAt.find? (fun p => decide (p.1 = i)) with
  | some p => p.2
  | none => 2

/-- Live lines of a sector: the lines of the entries there, and one for each RETIRE location there (R33, R129). -/
def liveLinesOf (dir : List DirEntry) (retireLocs : List Loc) (i : SectorIx) : Nat :=
  ((dir.filter (fun e => decide (e.loc.sector = i))).map DirEntry.lines).sum +
    (retireLocs.filter (fun l => decide (l.sector = i))).length

/-- A sector's entry as BUILD sets it (R129). -/
def State.builtEntry (s : State) (r : Resolved) (dir : List DirEntry) (retireLocs : List Loc)
    (active : Option SectorIx) (i : SectorIx) : SectorEntry :=
  let e := s.sector i
  let live := liveLinesOf dir retireLocs i
  if r.retired.contains i then { e with st := .retired, live := 0, dead := 0, retireLoc := s.retireChoice i r.notRetired }
  else if r.ended.contains i then e.toErasePending
  else if r.remaining.contains i then
    if active = some i then { e with st := .active, live := live, dead := s.store.scan.appendOf i - 2 - live }
    else { e with st := if r.reclaiming.contains i then .reclaiming else .sealed, live := live, dead := 254 - live }
  else e

/-- The sequence counter after a mount: one more than the highest sequence seen, each opening sequence counting as
having seen the number before it (R129). -/
def State.sequenceSeen (s : State) : Nat :=
  let recs := (s.store.scan.recs.map ScanRec.seq).foldl max 0
  (allSectors.filter s.isOpened).foldl (fun m i => max m ((s.sector i).openingSeq - 1)) recs

/-- The highest activation number of the opened sectors (R129). -/
def State.activationSeen (s : State) : Nat :=
  (allSectors.filter s.isOpened).foldl (fun m i => max m (s.sector i).activation) 0

/-- The transaction number of the highest-sequence record that carries one, 0 without one (R129). -/
def txnSeen (recs : List ScanRec) : Nat :=
  match bestOf (fun a b => decide (b.seq < a.seq)) (recs.filter (fun r => decide (r.txn ≠ 0))) with
  | some r => r.txn
  | none => 0

/-- BUILD: directory, sectors, accounting, counters and read-only cause (R128, R129). -/
def State.build (s : State) (r : Resolved) : State :=
  let chosen := r.committed.foldl s.choose []
  let all := chosen.map (s.entryOf r.committed)
  let dir := withinCapacity all
  let retireLocs := r.retired.filterMap (fun i => s.retireChoice i r.notRetired)
  let active := s.newestOf (r.remaining.filter (fun i => !r.reclaiming.contains i))
  let seqCtr := s.sequenceSeen + 1
  let cause : Cause :=
    if Config.directoryCapacity < all.length then .directory
    else if 29 < r.retired.length then .retirement
    else if seqCtr = Config.maxSequenceCounter then .sequence
    else .none
  { s with
    dir := dir
    sectors := Vector.ofFn (fun i => s.builtEntry r dir retireLocs active i)
    lw := { LogWriter.reset with
      point := active.map (fun i => { sector := i, line := s.store.scan.appendOf i })
      seqCtr := seqCtr
      actCtr := s.activationSeen + 1
      txnCtr := nextTxn (txnSeen s.store.scan.recs) }
    store := { s.store with cause := cause
                            scan := { s.store.scan with repair := s.store.scan.repair || r.repair } } }

/-! ### LOAD and OPEN (R130, R131) -/

/-- LOAD: working settings and guard slots from the settings entry (R130, R147, R170). -/
def State.load (s : State) : State :=
  let payload :=
    match s.entry Config.settingsKey with
    | some e => (s.store.scan.settings.find? (fun p => decide (p.loc = e.loc))).map ScanSettings.payload
    | none => none
  match payload with
  | some p =>
    if knownVersion p then { s with settings := Settings.ofPayload p, guards := loadGuards p s.guards }
    else { s with settings := Settings.factory, guards := clearUnfixed s.guards }
  | none => { s with settings := Settings.factory, guards := clearUnfixed s.guards }

/-- A mount that has reached its end in OPEN (R131). -/
def State.mountDone (s : State) : State :=
  let repaired := s.store.scan.repair
  let s1 := s.raiseIf repaired .mountRepaired
  let result : MountResult := if repaired then .repaired else .clean
  if s.store.cause = .none then s1.mountEnds .mounted result .ok s.dir.length s.blankCount
  else s1.mountEnds .readOnly result .readOnly s.dir.length s.blankCount

/-- The open stamp of the next candidate is requested; without a candidate the cause is NO-SECTOR (R131). -/
def State.mountOpenNext (s : State) : State :=
  match s.candidate with
  | none => State.mountDone { s with store := { s.store with cause := .noSector } }
  | some k =>
    State.placeM { s with lw := { s.lw with actCtr := s.lw.actCtr + 1 } }
      (.mountOpen k s.lw.actCtr s.lw.seqCtr) (.program k 1 (openStampLine s.lw.actCtr s.lw.seqCtr))

/-- OPEN (R131). -/
def State.openPhase (s : State) : State :=
  let s1 := { s with store := { s.store with phase := .open_ } }
  if s1.store.cause = .none ∧ s1.lw.point = none then s1.mountOpenNext else s1.mountDone

/-- The records have all been read: RESOLVE, BUILD, LOAD and OPEN follow without a read (R124–R131). -/
def State.recordsDone (s : State) : State :=
  ((s.build s.resolve).load).openPhase

/-- RECORDS goes on: the next READ, the next sector, or the end (R124). -/
def State.scanNext (s : State) : State :=
  match s.store.scan.toScan with
  | [] => s.recordsDone
  | i :: rest =>
    let c := s.store.scan
    if c.cursor < 256 then s.placeM .mountRecord (.readRecord i c.cursor .header)
    else
      match rest with
      | [] => (s.setScan { c with toScan := [], cursor := 2, attempts := 0 }).recordsDone
      | j :: _ =>
        (s.setScan { c with toScan := rest, cursor := 2, attempts := 0 }).placeM .mountRecord (.readRecord j 2 .header)

/-- All 32 sectors have been read: generation, classes, entries, and the scan's order (R122, R123, R124). Estimates, and
the MOUNT-REPAIRED they raise, exist once the generation is at least 1 (R40, R123; log 37). -/
def State.stampsDone (s : State) : State :=
  let c := s.store.scan
  let gen := highestGeneration c.stamps
  if gen = 0 then s.unformatted
  else
    let estimate := highestEraseCount c.stamps
    let estimated := allSectors.any (fun i => (c.stampOf i).erase.isNone)
    let repair := allSectors.any (fun i => decide (classify gen (c.stampOf i) = .erasePending))
    let s1 := { s with
      sectors := Vector.ofFn (fun i => stampEntry gen estimate (c.stampOf i))
      store := { s.store with generation := gen, phase := .records } }
    let s2 := s1.raiseIf estimated .mountRepaired
    (s2.setScan { c with toScan := s2.openedByAge, cursor := 2, attempts := 0, repair := repair }).scanNext

/-- The stamps of a sector have been read (R122). -/
def State.stampRead (s : State) (i : SectorIx) (bs : List Byte) : State :=
  let s1 := s.setScan { s.store.scan with stamps := s.store.scan.stamps ++ [judgeStamps bs] }
  if h : i.val + 1 < 32 then s1.placeStamp ⟨i.val + 1, h⟩ else s1.stampsDone

/-! ### RECORDS (R124) -/

/-- The line after the last written line of a sector. -/
def setAppend (l : List (SectorIx × Nat)) (i : SectorIx) (n : Nat) : List (SectorIx × Nat) :=
  (i, n) :: l.filter (fun p => decide (p.1 ≠ i))

/-- The settings payload kept for a sector: highest sequence, ties to the higher line (R124). -/
def keepSettings (l : List ScanSettings) (n : ScanSettings) : List ScanSettings :=
  match l.find? (fun p => decide (p.loc.sector = n.loc.sector)) with
  | none => n :: l
  | some p => if n.seq < p.seq then l else n :: l.filter (fun q => decide (q.loc.sector ≠ n.loc.sector))

/-- An accepted record as the scan keeps it (R124). -/
def Record.scanned (r : Record) (l : Loc) : ScanRec :=
  { kind := r.kind, solo := r.solo, relocated := r.relocated, key := r.key, length := r.length, lines := r.lines,
    txn := r.txn, seq := r.seq, loc := l, operand := r.operand
    copies := if r.kind = .reclaimEnd then r.copies else 0 }

/-- A record accepted at a place (R124). -/
def MountScan.accept (c : MountScan) (r : Record) (l : Loc) : MountScan :=
  { c with
    recs := c.recs ++ [r.scanned l]
    appendAt := setAppend c.appendAt l.sector (l.line + r.lines)
    settings :=
      if r.kind = .value ∧ r.key = Config.settingsKey then
        keepSettings c.settings { loc := l, seq := r.seq, payload := r.payload }
      else c.settings
    cursor := l.line + r.lines
    attempts := 0 }

/-- The READ of RECORDS has ended with a result (R124). -/
def State.recordRead (s : State) (i : SectorIx) (rr : ReadResult) : State :=
  let c := s.store.scan
  let l : Loc := { sector := i, line := c.cursor }
  let c1 :=
    if isBlankLine rr.bytes then { c with cursor := c.cursor + 1, attempts := 0 }
    else
      match validRecordAt c.cursor rr with
      | some r => c.accept r l
      | none =>
        if c.attempts = 0 then { c with attempts := 1 }
        else { c with
          cursor := c.cursor + 1, attempts := 0, repair := true
          appendAt := setAppend c.appendAt i (c.cursor + 1) }
  (s.setScan c1).scanNext

/-! ### The open stamp of OPEN -/

/-- What the end of an open stamp program of slot M does to its sector (R28). -/
def State.stampOpened (s : State) (k : SectorIx) (activation openingSeq : Nat) (v : Verify) : State :=
  match v with
  | .passed => s.modSector k (SectorEntry.toActive activation openingSeq)
  | .failed => (s.modSector k SectorEntry.toErasePending).raise .programFault

/-- The mount's open stamp program has ended (R131). -/
def State.mountOpened (s : State) (k : SectorIx) (activation openingSeq : Nat) (v : Verify) : State :=
  let s1 := s.stampOpened k activation openingSeq v
  match v with
  | .passed => State.mountDone { s1 with lw := { s1.lw with point := some { sector := k, line := 2 } } }
  | .failed => s1.mountOpenNext

/-- The mount that waited for slot M places its first request (log 18). -/
def State.resumeMount (s : State) : State :=
  if s.store.st = .mounting then s.placeStamp 0 else s

/-- The request of an abandoned mount has ended; its open stamp has the effect of R28 while the store is still in
POWER-HOLD (R132; log 18). -/
def State.abandonedOpen (s : State) (k : SectorIx) (activation openingSeq : Nat) (v : Verify) : State :=
  if s.store.st = .powerHold then s.stampOpened k activation openingSeq v
  else (s.raiseIf (decide (v = .failed)) .programFault).resumeMount

end Sys2Proof.Machine
end

