-- ==== Sys2Proof/Machine/Format.lean ====
section
/-! DEFINITION. FORMAT: its taking, its reads, erases and stamps, its opening and its RETIRE records, its ends and its
abort (R31, R40, R134–R137). -/

namespace Sys2Proof.Machine

/-! ### Small changes -/

/-- What the taking of FORMAT does to an entry (R135). -/
def SectorEntry.forFormat (e : SectorEntry) : SectorEntry :=
  let e1 := { e with mark := false, retireLoc := none }
  if e.st.holdsLog then e1.toErasePending else e1

/-- The format in flight changed. -/
def State.setFormat (s : State) (f : FormatFlight) : State :=
  { s with store := { s.store with format := some f } }

/-- A sector joins the list to retire, which is kept in index order (R135, R136). -/
def joinRetire (l : List SectorIx) (i : SectorIx) : List SectorIx :=
  allSectors.filter (fun j => l.contains j || decide (j = i))

/-- A sector on the list becomes RETIRED, and SECTOR-RETIRED is raised (R136, R137). -/
def State.formatRetired (s : State) (i : SectorIx) (loc : Option Loc) : State :=
  (s.modSector i (SectorEntry.toRetired loc)).raise .sectorRetired

/-- Every sector of a list becomes RETIRED with RETIRE location none (R136, R137). -/
def State.retireAll (s : State) (l : List SectorIx) : State :=
  l.foldl (fun t i => t.formatRetired i none) s

/-! ### Ends -/

/-- A format ends: the store state is set and its completion is posted with A = g, B = the BLANK count and C = the
retired count (R136, R137). -/
def State.formatEnds (s : State) (f : FormatFlight) (st : StoreState) (status : Status) : State :=
  let s1 := { s with store := { s.store with st := st, format := none, dirValid := decide (st = StoreState.mounted) } }
  s1.finish codeFormat status f.generation s1.blankCount s1.retiredCount

/-- The end with fewer than 3 BLANK sectors, or with no candidate left (R136; log 23). -/
def State.formatFails (s : State) (f : FormatFlight) : State :=
  let s1 := { s with lw := LogWriter.reset }
  (s1.retireAll f.toRetire).formatEnds f .unmounted .arrayFault

/-- The end in MOUNTED (R136 step 4). -/
def State.formatDone (s : State) (f : FormatFlight) : State :=
  State.formatEnds { s with store := { s.store with result := .clean } } f .mounted .ok

/-! ### Opening and RETIRE records (R136) -/

/-- The next RETIRE record is requested at the append point, or the format ends (R136 step 3). -/
def State.formatRetireNext (s : State) (f : FormatFlight) (l : List SectorIx) : State :=
  match l, s.lw.point with
  | [], _ => s.formatDone f
  | _ :: _, none => s.formatDone f
  | i :: rest, some p =>
    let r := retireRecord i s.lw.seqCtr
    let s1 := (s.modSector p.sector SectorEntry.addDead).setFormat { f with step := .retiring i rest }
    let lw := { s1.lw with seqCtr := s1.lw.seqCtr + 1, point := some { p with line := p.line + 1 } }
    State.placeM { s1 with lw := lw } (.formatRetire i) (.program p.sector p.line (r.lineData 0))

/-- The open stamp of the next candidate is requested (R136 step 2). -/
def State.formatOpenNext (s : State) (f : FormatFlight) : State :=
  match s.candidate with
  | none => s.formatFails f
  | some k =>
    let s1 := s.setFormat { f with step := .opening k }
    let lw := { s1.lw with actCtr := s1.lw.actCtr + 1 }
    State.placeM { s1 with lw := lw } (.formatOpen k s.lw.actCtr s.lw.seqCtr)
      (.program k 1 (openStampLine s.lw.actCtr s.lw.seqCtr))

/-- Every sector has been taken (R136). -/
def State.formatTaken (s : State) (f : FormatFlight) : State :=
  if s.blankCount < Config.minUsableSectors then s.formatFails f
  else
    let lw := { s.lw with seqCtr := 1, actCtr := 1, txnCtr := 1 }
    State.formatOpenNext { s with lw := lw } f

/-- FORMAT's open stamp program has ended (R136 step 2). -/
def State.formatOpened (s : State) (f : FormatFlight) (k : SectorIx) (activation openingSeq : Nat) (v : Verify) :
    State :=
  let s1 := s.stampOpened k activation openingSeq v
  match v with
  | .passed =>
    let lw := { s1.lw with point := some { sector := k, line := 2 } }
    State.formatRetireNext { s1 with lw := lw } f f.toRetire
  | .failed => s1.formatOpenNext f

/-- A RETIRE record's program has ended; the record stands on the line before the append point (R136 step 3). -/
def State.formatRetireEnded (s : State) (f : FormatFlight) (i : SectorIx) (todo : List SectorIx) (l : Loc)
    (v : Verify) : State :=
  match v with
  | .passed => ((s.formatRetired i (some l)).modSector l.sector (SectorEntry.takeLines 1)).formatRetireNext f todo
  | .failed => ((s.raise .programFault).formatRetired i none).formatRetireNext f todo

/-! ### Reads, erases and stamps (R135) -/

/-- The sectors one at a time: at the endurance limit a sector joins the list to retire; otherwise its ERASE is placed
in slot M (R39, R135). -/
def State.formatTake (s : State) (f : FormatFlight) : List SectorIx → State
  | [] => s.formatTaken f
  | i :: rest =>
    if Config.enduranceLimit ≤ (s.sector i).eraseCount then
      State.formatTake (s.modSector i SectorEntry.toErasePending) { f with toRetire := joinRetire f.toRetire i } rest
    else
      ((s.modSector i SectorEntry.toErasing).setFormat { f with step := .erasing i rest }).placeM (.formatErase i)
        (.erase i)

/-- The order in which the sectors are taken: the BLANK ones, then the others (R135). -/
def State.formatOrder (s : State) : List SectorIx :=
  s.sectorsIn .blank ++ allSectors.filter (fun i => decide ((s.sector i).st ≠ .blank))

/-- The READ of line 0 of a sector (R135). -/
def State.formatReadLine (s : State) (f : FormatFlight) (i : SectorIx) : State :=
  (s.setFormat { f with step := .reading i }).placeM (.formatRead i) (.readLines i 0 1)

/-- The erase count as FORMAT sets it from line 0 (R40). -/
def SectorEntry.recount (bs : List Byte) (e : SectorEntry) : SectorEntry :=
  match validEraseStamp bs with
  | some (_, n) => { e with eraseCount := max n e.eraseCount }
  | none => e

/-- A READ of line 0 has ended (R135). -/
def State.formatReadEnded (s : State) (f : FormatFlight) (i : SectorIx) (bs : List Byte) : State :=
  let s1 := s.modSector i (SectorEntry.recount bs)
  if h : i.val + 1 < 32 then s1.formatReadLine f ⟨i.val + 1, h⟩ else s1.formatTake f s1.formatOrder

/-- A FORMAT erase has ended (R135). -/
def State.formatErased (s : State) (f : FormatFlight) (i : SectorIx) (todo : List SectorIx) (v : Verify) : State :=
  match v with
  | .passed =>
    let s1 := s.modSector i SectorEntry.raiseCount
    (s1.setFormat { f with step := .stamping i todo }).placeM (.formatStamp i)
      (.program i 0 (eraseStampLine f.generation (s1.sector i).eraseCount))
  | .failed =>
    ((s.modSector i SectorEntry.toErasePending).raise .eraseFault).formatTake
      { f with toRetire := joinRetire f.toRetire i } todo

/-- What the end of an erase stamp program of slot M does to its sector (R135). -/
def State.formatStamped (s : State) (generation : Nat) (i : SectorIx) (v : Verify) : State :=
  match v with
  | .passed => s.modSector i (SectorEntry.toBlank generation)
  | .failed => (s.modSector i SectorEntry.toErasePending).raise .programFault

/-! ### Taking and abort -/

/-- What the taking of FORMAT does, but for its first READ (R135). -/
def State.formatClears (s : State) : State :=
  { s with
    dir := []
    sectors := s.sectors.map SectorEntry.forFormat
    lw := LogWriter.reset
    tm := { s.tm with staging := [], held := false }
    eng := { s.eng with stalled := false }
    store := { s.store with
      st := .formatting, cause := .none, dirValid := false, result := .none
      generation := s.store.generation + 1 } }

/-- FORMAT is taken (R135). -/
def State.beginFormat (s : State) (tag : Byte) : State :=
  s.formatClears.formatReadLine
    { generation := s.store.generation + 1, toRetire := [], tag := tag, step := .reading 0 } 0

/-- The sectors still on the list to retire (R137). DESIGN CHOICE (log 38): a sector whose RETIRE program is in
progress is still one of them, so PFAIL# retires it without a location, whatever that program's verify then says. -/
def FormatFlight.listed (f : FormatFlight) : List SectorIx :=
  match f.step with
  | .retiring i todo => i :: todo
  | _ => f.toRetire

/-- The sector whose erase or whose stamp program has not begun or is abandoned becomes ERASE-PENDING (R30, R113,
R137). -/
def State.formatUnerase (s : State) (f : FormatFlight) (keep : Bool) : State :=
  match f.step with
  | .erasing i _ => s.modSector i SectorEntry.toErasePending
  | .stamping i _ => if keep then s else s.modSector i SectorEntry.toErasePending
  | _ => s

/-- PFAIL# ends a format (R137). -/
def State.formatAborts (s : State) : State :=
  let s1 := s.abandonErase
  match s1.store.format with
  | none => State.dropM { s1 with store := { s1.store with st := .powerHold, dirValid := false } }
  | some f =>
    let keep := match s1.arr.m with | some r => r.inProgress | none => false
    (((s1.formatUnerase f keep).retireAll f.listed).formatEnds f .powerHold .powerFail).dropM

/-- The request of an abandoned format has ended with an effect on its sector, while the store is still in POWER-HOLD;
later only a failed verify shows (R137; log 18). -/
def State.abandonedProgram (s : State) (v : Verify) (effect : State → State) : State :=
  if s.store.st = .powerHold then effect s
  else (s.raiseIf (decide (v = .failed)) .programFault).resumeMount

end Sys2Proof.Machine
end

