-- ==== Sys2Proof/Machine/Power.lean ====
section
/-! DEFINITION. Resets and PFAIL#: POWER_ON_RESET, RESET_ASSERTED, RESET_RELEASED, VCC_IN_OPERATING_RANGE,
PFAIL_ASSERTED and PFAIL_DEASSERTED (R27, R61, R83, R105, R113, R116–R120, R146, R149, R163, R165, R180). -/

namespace Sys2Proof.Machine

/-! ### Resets -/

/-- The port after a reset: an open frame is abandoned, and no byte is taken until CS# has been high. A port still
`ready` has completed no control byte since CS# was high; a frame begun by then is dropped as its control byte
completes (R180; `execControlByte`, log 6). -/
def PortState.afterReset : PortState → PortState
  | .ready => .ready
  | .frame _ => .waitHigh
  | .waitHigh => .waitHigh

/-- A reset acts on every block; the array keeps what it holds, with the line or sector of an operation cut left as
R116 gives (the operation's begin has already marked it). -/
def State.resetBlocks (s : State) (powerOn : Bool) : State :=
  { s with
    sectors := Vector.replicate 32 SectorEntry.reset
    dir := []
    lw := LogWriter.reset
    tm := TxnManager.reset
    eng := Engine.reset
    arr := Sequencer.reset
    store := StoreCtl.reset
    guards := guardsAfterReset powerOn s.guards
    settings := Settings.factory
    cu := CmdUnit.reset
    win := { Window.reset with port := s.win.port.afterReset } }

/-- The level of RESET#. -/
def State.setReset (s : State) (low : Bool) : State :=
  { s with pins := { s.pins with resetLow := low } }

/-- The level of PFAIL#. -/
def State.setPfail (s : State) (low : Bool) : State :=
  { s with pins := { s.pins with pfailLow := low } }

/-- Whether VCC has come within its range. -/
def State.setVcc (s : State) (inRange : Bool) : State :=
  { s with pins := { s.pins with vccInRange := inRange } }

/-- The automatic mount begins once the part is held in reset no longer (R117, R121, R180). -/
def State.endReset (s : State) : State :=
  if s.heldInReset then s else s.beginMount .automatic

/-- POWER_ON_RESET: VCC rises through the power-on threshold (R180). -/
def execPowerOnReset (s : State) : Host.Outcome State Fault Refusal :=
  .next ((s.setVcc false).resetBlocks true)

/-- RESET_ASSERTED: the part is held in reset (R180). -/
def execResetAsserted (s : State) : Host.Outcome State Fault Refusal :=
  if s.pins.resetLow then .next s
  else .next ((s.setReset true).resetBlocks false)

/-- RESET_RELEASED: the automatic mount begins (R118, R180), unless the power-on reset still holds the part. -/
def execResetReleased (s : State) : Host.Outcome State Fault Refusal :=
  if s.pins.resetLow then .next (s.setReset false).endReset.grant
  else .next s

/-- VCC_IN_OPERATING_RANGE: the power-on reset ends (R180), unless RESET# still holds the part. -/
def execVccInOperatingRange (s : State) : Host.Outcome State Fault Refusal :=
  if s.pins.vccInRange then .next s
  else .next (s.setVcc true).endReset.grant

/-! ### PFAIL# -/

/-- The answer to the requester of an erase that had begun when it is abandoned (R113). -/
def Sequencer.abandoned (a : Sequencer) : List Signal :=
  match a.erase with
  | some e => [.slotRefused e.slot .powerFail]
  | none => []

/-- The store enters POWER-HOLD with a valid directory: the Log Writer stops, waiting and begun work is refused or
abandoned, whoever waits for space ends (R26, R69, R72, R79, R100, R113, R120). DESIGN CHOICE (log 36): where a commit
or a settings write and a RECLAIM unit both end here, R79 and R113 give their completions no order; the model posts
first that of the one that waits for space, then what follows from slot L, from slot C or the abandoned erase, and
from the ready records. -/
def State.powerHold (s : State) : Answer :=
  let s0 := if s.store.st = .mounted then s.holdStaging else s
  let s1 := { s0 with store := { s0.store with st := .powerHold, dirValid := true }
                      lw := { s0.lw with stopped := true } }
  let a := s1.refuseWaiting .powerFail
  let b := a.1.abandonErase.refuseReady .powerFail
  (b.1.failWaiter .powerFail, a.2 ++ a.1.arr.abandoned ++ b.2)

/-- What PFAIL# does in each store state (R120). -/
def State.powerFails (s : State) : Answer :=
  match s.store.st with
  | .mounted => s.powerHold
  | .readOnly => s.powerHold
  | .mounting => (s.mountAborts, [])
  | .formatting => (s.formatAborts, [])
  | .unmounted => ({ s with store := { s.store with st := .powerHold, dirValid := false } }, [])
  | .powerHold => (s, [])

/-- PFAIL_ASSERTED: POWER-FAIL is raised and the store enters POWER-HOLD (R113, R120); in reset only the level is seen
(log 29). -/
def execPfailAsserted (s : State) : Host.Outcome State Fault Refusal :=
  if s.pins.pfailLow then .next s
  else if s.heldInReset then .next (s.setPfail true)
  else conclude ((s.setPfail true).raise .powerFail).powerFails

/-- PFAIL_DEASSERTED: the store stays in POWER-HOLD (R120). -/
def execPfailDeasserted (s : State) : Host.Outcome State Fault Refusal :=
  .next (s.setPfail false)

end Sys2Proof.Machine
end

