-- ==== Sys2Proof/Machine/Port.lean ====
section
/-! DEFINITION. The register window and the serial port: the 64 locations, frames, ports, FAULTS and SOFT-RESET
(R150, R156, R172–R180). -/

namespace Sys2Proof.Machine

/-! ### What the locations read (R175) -/

/-- The code of a store state (R117). -/
def StoreState.code : StoreState → Nat
  | .unmounted => 0
  | .mounting => 1
  | .mounted => 2
  | .readOnly => 3
  | .formatting => 4
  | .powerHold => 5

/-- The code of a read-only cause (R117). -/
def Cause.code : Cause → Nat
  | .none => 0
  | .retirement => 1
  | .sequence => 2
  | .directory => 3
  | .noSector => 4

/-- The code of a mount phase (R117). -/
def MountPhase.code : MountPhase → Nat
  | .stamps => 0x11
  | .records => 0x12
  | .resolve => 0x13
  | .build => 0x14
  | .load => 0x15
  | .open_ => 0x16

/-- The code of an engine state (R83). -/
def EngineState.code : EngineState → Nat
  | .idle => 0
  | .beginning => 1
  | .copying => 2
  | .ending => 3
  | .erasing => 4
  | .stamping => 5
  | .retiring => 6

/-- STORE-STATE (R175). -/
def State.storeStateByte (s : State) : Byte :=
  BitVec.ofNat 8 (s.store.st.code + 16 * s.store.cause.code + (if s.store.dirValid then 128 else 0))

/-- RECLAIM-STATE (R83). -/
def State.reclaimStateByte (s : State) : Byte :=
  BitVec.ofNat 8 (s.eng.st.code + (if s.eng.stalled then 128 else 0))

/-- MOUNT-RESULT: the phase while MOUNTING, the result otherwise (R117). -/
def State.mountResultByte (s : State) : Byte :=
  BitVec.ofNat 8 (if s.store.st = .mounting then s.store.phase.code else s.store.result.code)

/-- TXN-STATE (R61). -/
def State.txnStateByte (s : State) : Byte :=
  let base :=
    match s.tm.commit with
    | some f => match f.phase with | .waitingSpace => 2 | .writing => 3
    | none => if s.tm.staging = [] then 0 else 1
  BitVec.ofNat 8 (base + (if s.tm.settings.isSome then 16 else 0) + (if s.tm.held then 32 else 0))

/-- The head completion, or 0 in every field (R149). -/
def State.headFields (s : State) : Byte × Byte × Byte × BitVec 32 × BitVec 16 × BitVec 16 :=
  match s.cu.completions with
  | [] => (0#8, 0#8, 0#8, 0#32, 0#16, 0#16)
  | c :: _ => (c.tag, c.code, c.status.code, c.a, c.b, c.c)

/-- Locations 00h–12h. -/
def State.windowLow (s : State) : List Byte :=
  [0x4C#8, 0x10#8, s.storeStateByte, s.reclaimStateByte, s.mountResultByte, 0#8] ++
    be16 s.win.faults.toNat ++ be16 s.win.intEnable.toNat ++ [s.cu.tag] ++ be16 s.cu.key.toNat ++
    [s.cu.len, s.cu.arg0, s.cu.arg1, s.cu.arg2, s.cu.arg3, 0#8]

/-- Locations 13h–23h. -/
def State.windowMid (s : State) : List Byte :=
  let h := s.headFields
  [BitVec.ofNat 8 (Config.commandQueueSize - s.cu.queue.length), BitVec.ofNat 8 s.cu.completions.length, 0#8,
   h.1, h.2.1, h.2.2.1] ++
    be32 h.2.2.2.1.toNat ++ be16 h.2.2.2.2.1.toNat ++ (be16 h.2.2.2.2.2.toNat).take 1 ++ [0#8] ++
    be16 s.win.input.length ++ (be16 h.2.2.2.2.2.toNat).drop 1

/-- Locations 24h–3Fh. -/
def State.windowHigh (s : State) : List Byte :=
  [0#8, BitVec.ofNat 8 s.win.output.length, BitVec.ofNat 8 s.win.outPos, 0#8,
   BitVec.ofNat 8 s.blankCount, BitVec.ofNat 8 s.retiredCount] ++ be16 s.dir.length ++
    [BitVec.ofNat 8 s.stagedOps] ++ be16 s.stagedBytes ++
    [s.txnStateByte, BitVec.ofNat 8 s.settings.threshold, BitVec.ofNat 8 s.settings.autoReclaim,
     BitVec.ofNat 8 s.settings.suspendLimit] ++ List.replicate 13 0#8

/-- The 64 locations as a read returns them; the snapshot of a read frame (R173, R175). -/
def State.window (s : State) : List Byte :=
  s.windowLow ++ s.windowMid ++ s.windowHigh

/-! ### Frames (R172) -/

/-- DATA-IN. -/
def addrDataIn : BitVec 6 := 0x20#6

/-- DATA-OUT. -/
def addrDataOut : BitVec 6 := 0x24#6

/-- The address after a data byte: each port location holds it in its own direction (R172). -/
def nextAddr (dir : FrameDir) (a : BitVec 6) : BitVec 6 :=
  if dir = .write ∧ a = addrDataIn then a
  else if dir = .read ∧ a = addrDataOut then a
  else a + 1#6

/-- The DATA-OUT byte taken when its transfer begins (R177). -/
def State.takeOut (s : State) : OutByte :=
  if s.win.outPos < s.win.output.length then { byte := byteAt s.win.output s.win.outPos, advances := true }
  else { byte := 0#8, advances := false }

/-- The byte taken for the current address of a read frame, when that is DATA-OUT. -/
def State.outFor (s : State) (dir : FrameDir) (a : BitVec 6) : Option OutByte :=
  if dir = .read ∧ a = addrDataOut then some s.takeOut else none

/-- The port and the byte SDO drove. -/
def State.setPort (s : State) (p : PortState) (sdo : Option Byte) : State :=
  { s with win := { s.win with port := p, sdo := sdo } }

/-- The direction a control byte gives (R172). -/
def controlDir (b : Byte) : FrameDir :=
  if b.getLsbD 6 then .ignored else if b.getLsbD 7 then .read else .write

/-- The frame a control byte opens, with its snapshot when it is a read frame (R172, R173, R177). -/
def State.openFrame (s : State) (b : Byte) : Frame :=
  let dir := controlDir b
  let a := b.extractLsb' 0 6
  { dir := dir, addr := a, snapshot := if dir = .read then s.window else [], out := s.outFor dir a }

/-- CONTROL_BYTE: the first complete byte of a frame (R172). While the part is held in reset no frame is taken, and a
frame open across a reset, its control byte incomplete then, is dropped whole: the port takes no byte until CS# has
been high (R180; log 6). DESIGN CHOICE (log 32): SDO is high-impedance in a frame dropped so. -/
def execControlByte (b : FirstByte) (s : State) : Host.Outcome State Fault Refusal :=
  match s.win.port with
  | .ready =>
    .next (if s.heldInReset || b.acrossReset then s.setPort .waitHigh none
      else s.setPort (.frame (s.openFrame b.byte)) (some 0#8))
  | .frame _ => .next s
  | .waitHigh => .next s

/-- CS_RISING_EDGE: the frame ends, SDO is high-impedance, and the port is ready for the next frame (R172, R180). -/
def execCsRisingEdge (s : State) : Host.Outcome State Fault Refusal :=
  .next (s.setPort .ready none)

/-- The write frame that is open, when its current address passes a test. -/
def State.writeFrame (s : State) (test : BitVec 6 → Bool) : Option Frame :=
  match s.win.port with
  | .frame f => if decide (f.dir = .write) && test f.addr then some f else none
  | _ => none

/-- A write frame's byte has acted: the address advances, SDO drove 00h (R172). -/
def State.afterWrite (s : State) (f : Frame) : State :=
  s.setPort (.frame { f with addr := nextAddr .write f.addr }) (some 0#8)

/-! ### Locations written (R174) -/

/-- A 16-bit value with its high byte written. -/
def withHigh (w : BitVec 16) (b : Byte) : BitVec 16 :=
  (b ++ w.extractLsb' 0 8 : BitVec (8 + 8))

/-- A 16-bit value with its low byte written. -/
def withLow (w : BitVec 16) (b : Byte) : BitVec 16 :=
  (w.extractLsb' 8 8 ++ b : BitVec (8 + 8))

/-- The entry a write to CMD-GO offers (R150). -/
def CmdUnit.offered (u : CmdUnit) (code : Byte) : CmdEntry :=
  { code := code, tag := u.tag, key := u.key, len := u.len, arg0 := u.arg0, arg1 := u.arg1, arg2 := u.arg2,
    arg3 := u.arg3 }

/-- A write to CMD-GO (R150). -/
def State.offerCommand (s : State) (code : Byte) : State :=
  if s.cu.queue.length < Config.commandQueueSize then
    { s with cu := { s.cu with queue := s.cu.queue ++ [s.cu.offered code] } }
  else s.raise .commandOverrun

/-- A byte written to a location without a row of its own: a read-write location takes it, CMD-GO offers a command,
any other ignores it (R174, R175, R179). -/
def State.writeLocation (s : State) (a : BitVec 6) (b : Byte) : State :=
  match a.toNat with
  | 0x08 => { s with win := { s.win with intEnable := withHigh s.win.intEnable b &&& intEnableMask } }
  | 0x09 => { s with win := { s.win with intEnable := withLow s.win.intEnable b &&& intEnableMask } }
  | 0x0A => { s with cu := { s.cu with tag := b } }
  | 0x0B => { s with cu := { s.cu with key := withHigh s.cu.key b } }
  | 0x0C => { s with cu := { s.cu with key := withLow s.cu.key b } }
  | 0x0D => { s with cu := { s.cu with len := b } }
  | 0x0E => { s with cu := { s.cu with arg0 := b } }
  | 0x0F => { s with cu := { s.cu with arg1 := b } }
  | 0x10 => { s with cu := { s.cu with arg2 := b } }
  | 0x11 => { s with cu := { s.cu with arg3 := b } }
  | 0x12 => s.offerCommand b
  | _ => s

/-- The locations whose writes are rows of their own: FAULTS, CQ-POP, DATA-IN, IN-CLEAR, SOFT-RESET. -/
def ownRow (a : BitVec 6) : Bool :=
  [0x06#6, 0x07#6, 0x15#6, 0x20#6, 0x27#6, 0x3F#6].contains a

/-- Whether a byte at a location is SOFT_RESET's ignored byte: at 3Fh with bit 0 clear (R180). -/
def ignoredReset (a : BitVec 6) (b : Byte) : Bool :=
  decide (a = 0x3F#6) && !b.getLsbD 0

/-- REGISTER_WRITE (R174). DEDUCED (log 20): the byte that SOFT-RESET ignores may come by this row or by SOFT_RESET, to
the same effect (R180). -/
def execRegisterWrite (b : Byte) (s : State) : Host.Outcome State Fault Refusal :=
  match s.writeFrame (fun a => !ownRow a || ignoredReset a b) with
  | none => .next s
  | some f => .next ((s.writeLocation f.addr b).afterWrite f)

/-- The indications a byte at 06h or 07h clears (R178). -/
def faultBits (a : BitVec 6) (b : Byte) : BitVec 16 :=
  if a = 0x06#6 then withHigh 0#16 b else withLow 0#16 b

/-- FAULTS: each indication written as 1 is cleared (R178). -/
def execFaults (b : Byte) (s : State) : Host.Outcome State Fault Refusal :=
  match s.writeFrame (fun a => decide (a = 0x06#6) || decide (a = 0x07#6)) with
  | none => .next s
  | some f =>
    .next (State.afterWrite { s with win := { s.win with faults := s.win.faults &&& ~~~(faultBits f.addr b) } } f)

/-- CQ_POP: the head completion is removed; on an empty queue the write is ignored (R156). -/
def execCqPop (_ : Byte) (s : State) : Host.Outcome State Fault Refusal :=
  match s.writeFrame (fun a => decide (a = 0x15#6)) with
  | none => .next s
  | some f => .next (State.afterWrite { s with cu := { s.cu with completions := s.cu.completions.tail } } f)

/-- A byte at DATA-IN joins the input buffer, or is dropped with PORT-OVERRUN (R64, R176). -/
def State.acceptByte (s : State) (b : Byte) : State :=
  if s.win.input.length < Config.inputBufferSize ∧ s.claimed = false then
    { s with win := { s.win with input := s.win.input ++ [b] } }
  else s.raise .portOverrun

/-- DATA_IN (R176). -/
def execDataIn (b : Byte) (s : State) : Host.Outcome State Fault Refusal :=
  match s.writeFrame (fun a => decide (a = addrDataIn)) with
  | none => .next s
  | some f => .next ((s.acceptByte b).afterWrite f)

/-- IN-CLEAR empties the input buffer, or is dropped with PORT-OVERRUN while the buffer is claimed (R64, R176). -/
def State.clearInput (s : State) : State :=
  if s.claimed then s.raise .portOverrun else { s with win := { s.win with input := [] } }

/-- IN_CLEAR (R176). -/
def execInClear (_ : Byte) (s : State) : Host.Outcome State Fault Refusal :=
  match s.writeFrame (fun a => decide (a = 0x27#6)) with
  | none => .next s
  | some f => .next (s.clearInput.afterWrite f)

/-- SOFT_RESET: with bit 0 set the part is reset and the automatic mount begins; with bit 0 clear the byte is ignored
(R180). DESIGN CHOICE (log 32): for the rest of the frame that reset the part SDO stays at 00h, until CS# rises. -/
def execSoftReset (b : Byte) (s : State) : Host.Outcome State Fault Refusal :=
  match s.writeFrame (fun a => decide (a = 0x3F#6)) with
  | none => .next s
  | some f =>
    if b.getLsbD 0 then .next (((s.resetBlocks false).setPort .waitHigh (some 0#8)).beginMount .automatic).grant
    else .next (s.afterWrite f)

/-! ### Reading -/

/-- The byte a read frame's transfer returns (R173, R177). -/
def Frame.returns (f : Frame) : Byte :=
  match f.out with
  | some o => o.byte
  | none => byteAt f.snapshot f.addr.toNat

/-- OUT-POS after a read frame's byte (R177). -/
def Frame.advancesOut (f : Frame) : Bool :=
  match f.out with
  | some o => o.advances
  | none => false

/-- A byte of a read frame completes: it is returned, OUT-POS advances when it was a DATA-OUT byte from the buffer, and
the next transfer begins (R172, R173, R177). -/
def State.readByte (s : State) (f : Frame) : State :=
  let s1 := if f.advancesOut then { s with win := { s.win with outPos := s.win.outPos + 1 } } else s
  let a := nextAddr .read f.addr
  s1.setPort (.frame { f with addr := a, out := s1.outFor .read a }) (some f.returns)

/-- DATA_OUT: a complete data byte of a read frame, at DATA-OUT or elsewhere (R173, R177; log 20). -/
def execDataOut (s : State) : Host.Outcome State Fault Refusal :=
  match s.win.port with
  | .frame f => if f.dir = .read then .next (s.readByte f) else .next s
  | .ready => .next s
  | .waitHigh => .next s

end Sys2Proof.Machine
end

