-- ==== Sys2Proof/Machine/Foreground.lean ====
section
/-! DEFINITION. The takes of the foreground commands: GET, NEXT, PUT, DELETE, DISCARD, SETTING, GUARD-SET, GUARD-FIX,
SECTOR-QUERY and commands with an undefined code (R43, R49, R50, R53, R65–R68, R143–R145, R151–R153, R158, R161, R166).
A take whose conditions do not hold changes nothing (log 1). -/

namespace Sys2Proof.Machine

/-! ### GET and NEXT -/

/-- Whether GET accepts a key (R45). -/
def getKey (k : Key) : Bool :=
  isUserKey k || decide (k = Config.settingsKey)

/-- The checks of GET once the store state admits it; the entry when they pass (R49). -/
def State.getCheck (s : State) (k : Key) : Except Status DirEntry :=
  if !getKey k then .error .badKey
  else if s.isHidden k then .error .protected_
  else match s.entry k with
    | some d => if d.present then .ok d else .error .notFound
    | none => .error .notFound

/-- GET is being executed: the snapshot is taken and the READ placed in slot H (R50). -/
def State.startGet (s : State) (e : CmdEntry) (d : DirEntry) : State :=
  let g : GetFlight :=
    { tag := e.tag, key := e.key, loc := d.loc, lines := d.lines, length := d.length, seq := d.seq }
  let s1 := { s with cu := { s.cu with executing := some g } }
  (s1.place .h (.readRecord d.loc.sector d.loc.line (.lines d.lines))).1

/-- GET as its rules execute it (R49, R50). -/
def State.takeGet (s : State) (e : CmdEntry) : State :=
  match s.admitRead with
  | some st => s.answer e st 0 0 0
  | none =>
    match s.getCheck e.key with
    | .error st => (s.raiseIf (decide (st = .protected_)) .guardRefusal).answer e st 0 0 0
    | .ok d => (s.startGet e d).grant

/-- GET (R49, R50). -/
def execGet (s : State) : Host.Outcome State Fault Refusal :=
  match s.takeable (fun c => decide (c = codeGet)) with
  | none => .next s
  | some e => .next (s.dequeue.takeGet e)

/-- NEXT as its rule executes it (R53). -/
def State.takeNext (s : State) (e : CmdEntry) : State :=
  match s.admitRead with
  | some st => s.answer e st 0 0 0
  | none =>
    match s.nextEntry e.key s.isHidden with
    | some d => s.answer e .ok d.seq d.length d.key.toNat
    | none => s.answer e .notFound 0 0 0

/-- NEXT (R53). -/
def execNext (s : State) : Host.Outcome State Fault Refusal :=
  match s.takeable (fun c => decide (c = codeNext)) with
  | none => .next s
  | some e => .next (s.dequeue.takeNext e)

/-! ### PUT, DELETE, DISCARD -/

/-- The completion of a PUT or a DELETE: B the staged operations, C the staged bytes as they stand (R65–R67, R158). -/
def State.answerStaged (s : State) (e : CmdEntry) (st : Status) : State :=
  s.answer e st 0 s.stagedOps s.stagedBytes

/-- Checks 1 and 2 of R65, in their order. -/
def State.admitStaging (s : State) : Option Status :=
  match s.admitWrite with
  | some st => some st
  | none => if s.tm.commit.isSome then some .busy else none

/-- Check 6 of R65: whether a staging limit would be passed. -/
def State.stagingFull (s : State) (k : Key) (len : Nat) : Bool :=
  match stagedFind s.tm.staging k with
  | some o => decide (Config.stagingBytes < s.stagedBytes - o.bytes + len)
  | none => decide (Config.stagingOps ≤ s.stagedOps) || decide (Config.stagingBytes < s.stagedBytes + len)

/-- Check 7 of R65: whether the directory would have no place for a key. -/
def State.noPlace (s : State) (k : Key) : Bool :=
  (stagedFind s.tm.staging k).isNone && s.isNew k &&
    decide (Config.directoryCapacity < s.dir.length + s.newStaged + 1)

/-- The checks of PUT, in their order (R65). -/
def State.putCheck (s : State) (e : CmdEntry) : Option Status :=
  match s.admitStaging with
  | some st => some st
  | none =>
    if !isUserKey e.key then some .badKey
    else if Config.maxLength < e.len.toNat || s.win.input.length < e.len.toNat then some .badLength
    else if s.isGuarded e.key then some .protected_
    else if s.stagingFull e.key e.len.toNat then some .stagingFull
    else if s.noPlace e.key then some .noDirectorySpace
    else none

/-- A staged operation put in its key's position, or appended (R63, R66). -/
def stagedPut (l : List Staged) (o : Staged) : List Staged :=
  match stagedFind l o.key with
  | some _ => stagedReplace l o
  | none => l ++ [o]

/-- A PUT that passes its checks: the first L bytes of the input buffer are staged and the buffer is emptied (R66). -/
def State.stagePut (s : State) (e : CmdEntry) : State :=
  let s1 := s.setStaging
    (stagedPut s.tm.staging { key := e.key, value := some (s.win.input.take e.len.toNat) })
  { s1 with win := { s1.win with input := [] } }

/-- PUT as its rules execute it (R65, R66). -/
def State.takePut (s : State) (e : CmdEntry) : State :=
  match s.putCheck e with
  | some st => (s.raiseIf (decide (st = .protected_)) .guardRefusal).answerStaged e st
  | none => (s.stagePut e).answerStaged e .ok

/-- PUT (R65, R66). Leaving the queue releases its part of the claim (R64). -/
def execPut (s : State) : Host.Outcome State Fault Refusal :=
  match s.takeable (fun c => decide (c = codePut)) with
  | none => .next s
  | some e => .next (s.dequeue.takePut e)

/-- The outcome of a DELETE that passes its checks: the list after, and the status (R67). -/
def State.deleteStaged (s : State) (k : Key) : List Staged × Status :=
  match stagedFind s.tm.staging k with
  | some o =>
    if o.value.isSome then
      if s.isPresent k then (stagedReplace s.tm.staging { key := k, value := none }, .ok)
      else (stagedRemove s.tm.staging k, .ok)
    else (s.tm.staging, .ok)
  | none =>
    if s.isPresent k then
      if Config.stagingOps ≤ s.stagedOps then (s.tm.staging, .stagingFull)
      else (s.tm.staging ++ [{ key := k, value := none }], .ok)
    else (s.tm.staging, .notFound)

/-- The checks of DELETE, in their order (R67). -/
def State.deleteCheck (s : State) (e : CmdEntry) : Option Status :=
  match s.admitStaging with
  | some st => some st
  | none =>
    if !isUserKey e.key then some .badKey
    else if s.isGuarded e.key then some .protected_
    else none

/-- DELETE as its rule executes it (R67). -/
def State.takeDelete (s : State) (e : CmdEntry) : State :=
  match s.deleteCheck e with
  | some st => (s.raiseIf (decide (st = .protected_)) .guardRefusal).answerStaged e st
  | none => (s.setStaging (s.deleteStaged e.key).1).answerStaged e (s.deleteStaged e.key).2

/-- DELETE (R67). -/
def execDelete (s : State) : Host.Outcome State Fault Refusal :=
  match s.takeable (fun c => decide (c = codeDelete)) with
  | none => .next s
  | some e => .next (s.dequeue.takeDelete e)

/-- DISCARD as its rule executes it (R68). -/
def State.takeDiscard (s : State) (e : CmdEntry) : State :=
  match s.admitStaging with
  | some st => s.answer e st 0 0 0
  | none => (s.setStaging []).answer e .ok s.stagedOps 0 0

/-- DISCARD (R68). -/
def execDiscard (s : State) : Host.Outcome State Fault Refusal :=
  match s.takeable (fun c => decide (c = codeDiscard)) with
  | none => .next s
  | some e => .next (s.dequeue.takeDiscard e)

/-! ### SETTING -/

/-- The working value of a setting id, with its range (R165). -/
def Settings.named (w : Settings) (id : Nat) : Option (Nat × Nat × Nat) :=
  match id with
  | 1 => some (w.threshold, 2, 8)
  | 2 => some (w.autoReclaim, 0, 1)
  | 3 => some (w.suspendLimit, 0, 24)
  | _ => none

/-- A working setting changed (R166). -/
def Settings.write (w : Settings) (id v : Nat) : Settings :=
  match id with
  | 1 => { w with threshold := v }
  | 2 => { w with autoReclaim := v }
  | 3 => { w with suspendLimit := v }
  | _ => w

/-- A changed setting reaches the blocks: AUTO-RECLAIM from 1 to 0 repeats a waiting request at once, and under another
change of AUTO-RECLAIM or of RECLAIM-THRESHOLD the engine looks for work (R72, R84, R167). -/
def State.changeSetting (s : State) (id v : Nat) : Answer :=
  let s1 := { s with settings := s.settings.write id v }
  if s.settings.autoReclaim = 1 ∧ s1.settings.autoReclaim = 0 then s1.requestSpace
  else if id = 3 then (s1, [])
  else s1.lookForWork

/-- SETTING as its rules execute it: the change and its effects, and then the completion (R166). -/
def State.takeSetting (s : State) (e : CmdEntry) : Host.Outcome State Fault Refusal :=
  match s.admitLocal with
  | some st => conclude (s.answer e st 0 0 0, [])
  | none =>
    match s.settings.named e.arg0.toNat with
    | none => conclude (s.answer e .badArgument 0 0 0, [])
    | some (before, lo, hi) =>
      if lo ≤ e.arg1.toNat ∧ e.arg1.toNat ≤ hi then
        match settle (s.changeSetting e.arg0.toNat e.arg1.toNat) with
        | some t => conclude (t.answer e .ok e.arg0.toNat e.arg1.toNat before, [])
        | none => .fault .unsettled
      else conclude (s.answer e .badArgument 0 0 0, [])

/-- SETTING (R166, R167). -/
def execSetting (s : State) : Host.Outcome State Fault Refusal :=
  match s.takeable (fun c => decide (c = codeSetting)) with
  | none => .next s
  | some e => s.dequeue.takeSetting e

/-! ### Guards -/

/-- The completion that describes a slot as it stands (R143). -/
def State.answerSlot (s : State) (e : CmdEntry) (st : Status) (i : GuardIx) : State :=
  let g := s.guards.get i
  s.answer e st (g.describe i) g.low.toNat g.high.toNat

/-- The high key of a GUARD-SET (R143). -/
def CmdEntry.highKey (e : CmdEntry) : Key :=
  (e.arg2 ++ e.arg3 : BitVec (8 + 8))

/-- The mode of a mode code other than CLEAR (R143). -/
def modeOfCode (n : Nat) : GuardMode :=
  if n = 1 then .writeGuarded else .hidden

/-- Checks 2 to 4 of GUARD-SET (R143). -/
def State.guardSetCheck (s : State) (e : CmdEntry) (i : GuardIx) : Option Status :=
  if 2 < e.arg1.toNat then some .badArgument
  else if e.arg1.toNat ≠ 0 ∧ rangeAcceptable e.key e.highKey = false then some .badArgument
  else if (s.guards.get i).fixed then some .protected_
  else none

/-- The slot GUARD-SET writes (R143). -/
def CmdEntry.guardSlot (e : CmdEntry) : GuardSlot :=
  if e.arg1.toNat = 0 then GuardSlot.cleared
  else { inUse := true, low := e.key, high := e.highKey, mode := modeOfCode e.arg1.toNat, fixed := false }

/-- GUARD-SET as its rules execute it (R143, R145). -/
def State.takeGuardSet (s : State) (e : CmdEntry) : State :=
  match s.admitLocal with
  | some st => s.answer e st 0 0 0
  | none =>
    if h : e.arg0.toNat < 8 then
      match s.guardSetCheck e ⟨e.arg0.toNat, h⟩ with
      | some st => s.answerSlot e st ⟨e.arg0.toNat, h⟩
      | none => (s.setGuard ⟨e.arg0.toNat, h⟩ e.guardSlot).answerSlot e .ok ⟨e.arg0.toNat, h⟩
    else s.answer e .badArgument 0 0 0

/-- GUARD_SET (R143). -/
def execGuardSet (s : State) : Host.Outcome State Fault Refusal :=
  match s.takeable (fun c => decide (c = codeGuardSet)) with
  | none => .next s
  | some e => .next (s.dequeue.takeGuardSet e)

/-- GUARD-FIX as its rules execute it (R144, R145). -/
def State.takeGuardFix (s : State) (e : CmdEntry) : State :=
  match s.admitLocal with
  | some st => s.answer e st 0 0 0
  | none =>
    if h : e.arg0.toNat < 8 then
      let g := s.guards.get ⟨e.arg0.toNat, h⟩
      if g.inUse then
        (s.setGuard ⟨e.arg0.toNat, h⟩ { g with fixed := true }).answerSlot e .ok ⟨e.arg0.toNat, h⟩
      else s.answerSlot e .badArgument ⟨e.arg0.toNat, h⟩
    else s.answer e .badArgument 0 0 0

/-- GUARD_FIX (R144). -/
def execGuardFix (s : State) : Host.Outcome State Fault Refusal :=
  match s.takeable (fun c => decide (c = codeGuardFix)) with
  | none => .next s
  | some e => .next (s.dequeue.takeGuardFix e)

/-! ### SECTOR-QUERY and undefined codes -/

/-- Field C of SECTOR-QUERY (R43). -/
def SectorEntry.queryC (e : SectorEntry) : Nat :=
  256 * (e.st.code + (if e.mark then 128 else 0)) + e.dead

/-- SECTOR-QUERY as its rule executes it (R43). -/
def State.takeSectorQuery (s : State) (e : CmdEntry) : State :=
  if h : e.arg0.toNat < 32 then
    let x := s.sector ⟨e.arg0.toNat, h⟩
    if e.arg1.toNat = 0 then s.answer e .ok x.eraseCount x.live x.queryC
    else if e.arg1.toNat = 1 then s.answer e .ok x.activation x.live x.queryC
    else s.answer e .badArgument 0 0 0
  else s.answer e .badArgument 0 0 0

/-- SECTOR_QUERY (R43). -/
def execSectorQuery (s : State) : Host.Outcome State Fault Refusal :=
  match s.takeable (fun c => decide (c = codeSectorQuery)) with
  | none => .next s
  | some e => .next (s.dequeue.takeSectorQuery e)

/-- UNKNOWN_COMMAND: an undefined code is answered at once (R152). -/
def execUnknownCommand (s : State) : Host.Outcome State Fault Refusal :=
  match s.takeable (fun c => !definedCodes.contains c) with
  | none => .next s
  | some e => .next (s.dequeue.answer e .unknownCommand 0 0 0)

end Sys2Proof.Machine
end

