-- ==== Sys2Proof/Machine/Background.lean ====
section
/-! DEFINITION. The takes of the background commands COMMIT, SAVE-SETTINGS, RECLAIM, MOUNT and FORMAT, and the offer of
a commit's next record (R70, R75, R101, R133–R135, R142, R154, R161, R168). A take whose conditions do not hold changes
nothing (log 1). -/

namespace Sys2Proof.Machine

/-! ### COMMIT and SAVE-SETTINGS -/

/-- A commit or a settings write is in flight (R70, R168). -/
def State.writeInFlight (s : State) : Bool :=
  s.tm.commit.isSome || s.tm.settings.isSome

/-- The checks of COMMIT, in their order (R70). -/
def State.commitCheck (s : State) : Option Status :=
  match s.admitWrite with
  | some st => some st
  | none =>
    if s.txnState = .idle then some .nothingStaged
    else if s.writeInFlight then some .busy
    else if s.tm.staging.any (fun o => s.isGuarded o.key) then some .protected_
    else if Config.directoryCapacity < s.dir.length + s.newStaged then some .noDirectorySpace
    else none

/-- The commit as it is started (R70, R71). -/
def State.newCommit (s : State) : CommitFlight :=
  { n := s.stagedOps, amount := commitAmount s.tm.staging, phase := .waitingSpace, first := 0, txn := 0, nextIx := 0,
    written := [] }

/-- COMMIT as its rules execute it: once started it requests its reservation at once (R70, R71). -/
def State.takeCommitCommand (s : State) (e : CmdEntry) : Answer :=
  match s.commitCheck with
  | some st => ((s.raiseIf (decide (st = .protected_)) .guardRefusal).answer e st 0 0 0, [])
  | none => ((s.launch e).setCommit (some s.newCommit)).requestSpace

/-- COMMIT (R70). -/
def execCommit (s : State) : Host.Outcome State Fault Refusal :=
  match s.takeable (fun c => decide (c = codeCommit)) with
  | none => .next s
  | some e => conclude (s.dequeue.takeCommitCommand e)

/-- The checks of SAVE-SETTINGS, in their order (R142, R168). -/
def State.saveCheck (s : State) : Option Status :=
  match s.admitWrite with
  | some st => some st
  | none =>
    if s.writeInFlight then some .busy
    else if s.isGuarded Config.settingsKey then some .protected_
    else if s.isNew Config.settingsKey && decide (Config.directoryCapacity ≤ s.dir.length) then some .noDirectorySpace
    else none

/-- SAVE-SETTINGS as its rules execute it: the payload is formed and the settings write started (R82, R168, R169). -/
def State.takeSaveSettings (s : State) (e : CmdEntry) : Answer :=
  match s.saveCheck with
  | some st => ((s.raiseIf (decide (st = .protected_)) .guardRefusal).answer e st 0 0 0, [])
  | none =>
    ((s.launch e).setSettingsWrite (some
      { phase := .waitingSpace, payload := settingsPayload s.settings s.guards, seq := 0 })).requestSpace

/-- SAVE_SETTINGS (R168). -/
def execSaveSettings (s : State) : Host.Outcome State Fault Refusal :=
  match s.takeable (fun c => decide (c = codeSaveSettings)) with
  | none => .next s
  | some e => conclude (s.dequeue.takeSaveSettings e)

/-- The commit whose next record is to be offered: it is writing, and every record offered so far has been reported
written (R75). -/
def State.offerDue (s : State) : Option CommitFlight :=
  match s.tm.commit with
  | none => none
  | some f =>
    if f.phase = .writing ∧ f.written.length = f.nextIx ∧ f.nextIx < recordsOf f.n then some f else none

/-- COMMIT_RECORD_OFFER: the commit's next record is offered to the commit stream (R75). -/
def execCommitRecordOffer (s : State) : Host.Outcome State Fault Refusal :=
  match s.offerDue with
  | none => .next s
  | some f => conclude (s.offerCommit f)

/-! ### RECLAIM -/

/-- Whether there is a sector RECLAIM could work on (R101 check 3). -/
def State.reclaimWork (s : State) : Bool :=
  decide (s.sectorsIn .erasePending ≠ []) || decide (s.sectorsIn .reclaiming ≠ []) || allSectors.any s.reclaimable

/-- RECLAIM as its rule executes it (R101): a refusal, or the unit of R85 owned by the command. -/
def State.takeReclaim (s : State) (e : CmdEntry) : Answer :=
  match s.admitWrite with
  | some st => (s.answer e st 0 0 0, [])
  | none =>
    if s.eng.st ≠ .idle then (s.answer e .busy 0 0 0, [])
    else if s.reclaimWork = false then (s.answer e .notFound 0 0 0, [])
    else
      match s.unitChoice with
      | none => (s.answer e .noSpace 0 0 0, [])
      | some (k, i) => (s.launch e).startUnit k i (.command e.tag)

/-- RECLAIM (R101). -/
def execReclaim (s : State) : Host.Outcome State Fault Refusal :=
  match s.takeable (fun c => decide (c = codeReclaim)) with
  | none => .next s
  | some e => conclude (s.dequeue.takeReclaim e)

/-! ### MOUNT and FORMAT -/

/-- Work that MOUNT and FORMAT wait for (check 4 of R133 and of R134). -/
def State.workInFlight (s : State) : Bool :=
  s.writeInFlight || s.inFlight codeReclaim || decide (s.eng.st ≠ .idle)

/-- The checks of MOUNT, in their order (R133). -/
def State.mountCheck (s : State) : Option Status :=
  if s.store.st = .mounted then some .wrongState
  else if s.store.st = .formatting then some .busy
  else if s.store.st = .powerHold ∧ s.pins.pfailLow then some .powerFail
  else if s.workInFlight then some .busy
  else none

/-- MOUNT as its rule executes it (R133). -/
def State.takeMount (s : State) (e : CmdEntry) : State :=
  match s.mountCheck with
  | some st => s.answer e st 0 0 0
  | none => (s.launch e).beginMount (.command e.tag)

/-- MOUNT (R133). -/
def execMount (s : State) : Host.Outcome State Fault Refusal :=
  match s.takeable (fun c => decide (c = codeMount)) with
  | none => .next s
  | some e => .next (s.dequeue.takeMount e).grant

/-- The checks of FORMAT, in their order (R134). -/
def State.formatCheck (s : State) : Option Status :=
  if s.store.st = .formatting then some .busy
  else if s.store.st = .powerHold then some .powerFail
  else if s.anyFixed then some .protected_
  else if s.workInFlight then some .busy
  else if Config.maxGeneration ≤ s.store.generation then some .readOnly
  else none

/-- FORMAT as its rules execute it (R134, R135). -/
def State.takeFormat (s : State) (e : CmdEntry) : State :=
  match s.formatCheck with
  | some st => s.answer e st 0 0 0
  | none => (s.launch e).beginFormat e.tag

/-- FORMAT (R134, R135). -/
def execFormat (s : State) : Host.Outcome State Fault Refusal :=
  match s.takeable (fun c => decide (c = codeFormat)) with
  | none => .next s
  | some e => .next (s.dequeue.takeFormat e).grant

/-! ### The take in another happening -/

/-- The head of the command queue is taken by its code, when it may be (R151, R152). -/
def State.takeHead (s : State) : Host.Outcome State Fault Refusal :=
  match s.cu.queue with
  | [] => .next s
  | e :: _ =>
    if e.code = codeGet then execGet s
    else if e.code = codeNext then execNext s
    else if e.code = codePut then execPut s
    else if e.code = codeDelete then execDelete s
    else if e.code = codeDiscard then execDiscard s
    else if e.code = codeCommit then execCommit s
    else if e.code = codeSetting then execSetting s
    else if e.code = codeSaveSettings then execSaveSettings s
    else if e.code = codeGuardSet then execGuardSet s
    else if e.code = codeGuardFix then execGuardFix s
    else if e.code = codeSectorQuery then execSectorQuery s
    else if e.code = codeReclaim then execReclaim s
    else if e.code = codeMount then execMount s
    else if e.code = codeFormat then execFormat s
    else execUnknownCommand s

/-- An outcome followed by a grant (R107). -/
def grantAfter : Host.Outcome State Fault Refusal → Host.Outcome State Fault Refusal
  | .next s => .next s.grant
  | .fault f => .fault f
  | .refused r => .refused r

end Sys2Proof.Machine
end

