-- ==== Sys2Proof/Machine/ArrayEnds.lean ====
section
/-! DEFINITION. The ends of array operations of slots H, L and C (R19, R20, R51, R52, R88, R93, R94, R103, R107,
R110, R111, R115). An end of an operation that the array is not performing changes nothing (log 1). -/

namespace Sys2Proof.Machine

/-! ### Slot H -/

/-- Whether GET accepts what its READ returned; the record when it does (R51). -/
def GetFlight.accepts (g : GetFlight) (rr : ReadResult) : Option Record :=
  match parseRecord rr.bytes with
  | none => none
  | some r =>
    if rr.checkOk && decide (r.kind = .value) && decide (r.key = g.key) && decide (r.seq = g.seq) then some r else none

/-- A DATA-OUT byte in transfer no longer advances OUT-POS once a GET has loaded the buffer (R177). -/
def PortState.afterLoad : PortState → PortState
  | .frame f => .frame { f with out := f.out.map (fun o => { o with advances := false }) }
  | p => p

/-- The output buffer is loaded (R52). -/
def State.loadOutput (s : State) (bytes : List Byte) : State :=
  { s with win := { s.win with output := bytes, outPos := 0, port := s.win.port.afterLoad } }

/-- The completion of an executed GET (R51, R52, R153). -/
def State.postGet (s : State) (g : GetFlight) (st : Status) (a b c : Nat) : State :=
  State.post { s with cu := { s.cu with executing := none } }
    { tag := g.tag, code := codeGet, status := st, a := BitVec.ofNat 32 a, b := BitVec.ofNat 16 b,
      c := BitVec.ofNat 16 c }

/-- GET ends with what its READ returned (R51, R52). -/
def State.getEnds (s : State) (g : GetFlight) (rr : ReadResult) : State :=
  match g.accepts rr with
  | some r => (s.loadOutput r.payload).postGet g .ok r.seq r.length r.key.toNat
  | none => (s.raise .readFault).postGet g .arrayFault 0 0 0

/-- GET_READ_END (R51, R52). In the happening of the GET's completion the head of the command queue is taken, when the
other conditions of R151 hold (R153; log 19). -/
def execGetReadEnd (r : ReadOutcome) (s : State) : Host.Outcome State Fault Refusal :=
  match s.cu.executing, s.inHand .h with
  | some g, some (.readRecord sec p len) =>
    let x := s.readRecord sec p len r
    grantAfter ((x.2.release .h).getEnds g x.1).takeHead
  | _, _ => .next s

/-! ### Slot L -/

/-- LINE_PROGRAM_END: a program of a record line ends (R19, R24, R25). -/
def execLineProgramEnd (v : Verify) (s : State) : Host.Outcome State Fault Refusal :=
  match s.inHand .l with
  | some (.program sec line data) =>
    if Config.firstRecordLine ≤ line then conclude (((s.programmed sec line data v).release .l).lineEnded v)
    else .next s
  | _ => .next s

/-- OPEN_STAMP_PROGRAM_END: the Log Writer's open stamp program ends (R20, R24, R28). -/
def execOpenStampProgramEnd (v : Verify) (s : State) : Host.Outcome State Fault Refusal :=
  match s.inHand .l with
  | some (.program sec line data) =>
    if line = 1 then conclude (((s.programmed sec line data v).release .l).openingEnded v)
    else .next s
  | _ => .next s

/-! ### Slot C -/

/-- What the end of a READ of the walk brings about; without a walk in progress nothing asks for it (R88, R115). -/
def State.walkReadEnds (s : State) (v : SectorIx) (rr : ReadResult) : Answer :=
  if s.eng.st = .copying ∧ s.eng.sector = some v then s.walkRead v rr else (s, [])

/-- RECLAIM_READ_END: a READ of the walk of a victim ends (R88). -/
def execReclaimReadEnd (r : ReadOutcome) (s : State) : Host.Outcome State Fault Refusal :=
  match s.inHand .c with
  | some (.readRecord sec p len) =>
    let x := s.readRecord sec p len r
    conclude ((x.2.release .c).walkReadEnds sec x.1)
  | _ => .next s

/-- ERASE_STAMP_PROGRAM_END: the engine's erase stamp program ends (R94). -/
def execEraseStampProgramEnd (v : Verify) (s : State) : Host.Outcome State Fault Refusal :=
  match s.inHand .c with
  | some (.program sec line data) => conclude (((s.programmed sec line data v).release .c).stampEnded sec v)
  | _ => .next s

/-- ERASE_END: the running erase of slot C reaches its duration and verify is made (R93, R111). -/
def execEraseEnd (v : Verify) (s : State) : Host.Outcome State Fault Refusal :=
  match s.inHand .c with
  | some (.erase sec) =>
    if s.eraseRunning .c then conclude (((s.erased sec v).release .c).eraseEnded sec v) else .next s
  | _ => .next s

/-- The erase has become SUSPENDED: nothing is in progress until a grant (R105, R110). -/
def State.suspend (s : State) (e : EraseRun) : State :=
  { s with arr := { s.arr with busy := none, erase := some { e with cond := .suspended } } }

/-- ERASE_SUSPENDED: a SUSPENDING erase becomes SUSPENDED, and waiting requests of H and L are granted (R110, R111). -/
def execEraseSuspended (s : State) : Host.Outcome State Fault Refusal :=
  match s.arr.erase with
  | some e => if e.cond = .suspending then .next (s.suspend e).grant else .next s
  | none => .next s

end Sys2Proof.Machine
end

