-- ==== Sys2Proof/Machine/StoreEnds.lean ====
section
/-! DEFINITION. The ends of slot M's operations: the reads and the open stamp of a mount, and the reads, erases, stamps,
open stamp and RETIRE records of a format (R122–R131, R135–R137). An end of an operation that the array is not
performing changes nothing (log 1). -/

namespace Sys2Proof.Machine

/-- What slot M's operation in progress is for, whether it is abandoned, and the operation itself. -/
def State.inHandM (s : State) : Option (MRequest × ArrayOp) :=
  match s.store.req, s.inHand .m with
  | some q, some op => some (q, op)
  | _, _ => none

/-- The end of a READ of an abandoned mount or format; a mount that waits for slot M then begins (log 18). -/
def State.abandonedRead (s : State) : Host.Outcome State Fault Refusal :=
  conclude (s.resumeMount, [])

/-! ### Mount -/

/-- MOUNT_STAMP_READ_END (R122, R123). -/
def execMountStampReadEnd (r : ReadOutcome) (s : State) : Host.Outcome State Fault Refusal :=
  match s.inHandM with
  | some ({ purpose := .mountStamp i, abandoned := ab }, .readLines sec p n) =>
    let x := s.readSpan (lineNo sec p) n
    if ab then x.2.releaseM.abandonedRead else conclude (x.2.releaseM.stampRead i (returned r x.1), [])
  | _ => .next s

/-- MOUNT_RECORD_READ_END (R124). -/
def execMountRecordReadEnd (r : ReadOutcome) (s : State) : Host.Outcome State Fault Refusal :=
  match s.inHandM with
  | some ({ purpose := .mountRecord, abandoned := ab }, .readRecord sec p len) =>
    let x := s.readRecord sec p len r
    if ab then x.2.releaseM.abandonedRead else conclude (x.2.releaseM.recordRead sec x.1, [])
  | _ => .next s

/-- MOUNT_OPEN_STAMP_END (R131, R132). -/
def execMountOpenStampEnd (v : Verify) (s : State) : Host.Outcome State Fault Refusal :=
  match s.inHandM with
  | some ({ purpose := .mountOpen k a q, abandoned := ab }, .program sec line data) =>
    let s1 := (s.programmed sec line data v).releaseM
    if ab then conclude (s1.abandonedOpen k a q v, []) else conclude (s1.mountOpened k a q v, [])
  | _ => .next s

/-! ### Format -/

/-- FORMAT_STAMP_READ_END (R40, R135). -/
def execFormatStampReadEnd (r : ReadOutcome) (s : State) : Host.Outcome State Fault Refusal :=
  match s.inHandM, s.store.format with
  | some ({ purpose := .formatRead _, abandoned := true }, .readLines sec p n), _ =>
    (s.readSpan (lineNo sec p) n).2.releaseM.abandonedRead
  | some ({ purpose := .formatRead i, abandoned := false }, .readLines sec p n), some f =>
    let x := s.readSpan (lineNo sec p) n
    conclude (x.2.releaseM.formatReadEnded f i (returned r x.1), [])
  | _, _ => .next s

/-- The sectors a format has still to take. -/
def FormatFlight.todo (f : FormatFlight) : List SectorIx :=
  match f.step with
  | .erasing _ l => l
  | .stamping _ l => l
  | .retiring _ l => l
  | _ => []

/-- FORMAT_ERASE_END: the running erase of slot M reaches its duration and verify is made (R135). -/
def execFormatEraseEnd (v : Verify) (s : State) : Host.Outcome State Fault Refusal :=
  match s.inHandM, s.store.format with
  | some ({ purpose := .formatErase i, abandoned := false }, .erase sec), some f =>
    if s.eraseRunning .m then conclude ((s.erased sec v).releaseM.formatErased f i f.todo v, []) else .next s
  | _, _ => .next s

/-- FORMAT_STAMP_PROGRAM_END (R135, R137). -/
def execFormatStampProgramEnd (v : Verify) (s : State) : Host.Outcome State Fault Refusal :=
  match s.inHandM, s.store.format with
  | some ({ purpose := .formatStamp i, abandoned := true }, .program sec line data), _ =>
    let s1 := (s.programmed sec line data v).releaseM
    conclude (s1.abandonedProgram v (fun t => t.formatStamped t.store.generation i v), [])
  | some ({ purpose := .formatStamp i, abandoned := false }, .program sec line data), some f =>
    let s1 := (s.programmed sec line data v).releaseM
    conclude ((s1.formatStamped f.generation i v).formatTake f f.todo, [])
  | _, _ => .next s

/-- FORMAT_OPEN_STAMP_END (R136, R137). -/
def execFormatOpenStampEnd (v : Verify) (s : State) : Host.Outcome State Fault Refusal :=
  match s.inHandM, s.store.format with
  | some ({ purpose := .formatOpen k a q, abandoned := true }, .program sec line data), _ =>
    conclude ((s.programmed sec line data v).releaseM.abandonedOpen k a q v, [])
  | some ({ purpose := .formatOpen k a q, abandoned := false }, .program sec line data), some f =>
    conclude ((s.programmed sec line data v).releaseM.formatOpened f k a q v, [])
  | _, _ => .next s

/-- FORMAT_RETIRE_PROGRAM_END (R136, R137). The record of an abandoned format, verified or not, gives its sector no
location: PFAIL# has retired it without one (DESIGN CHOICE, log 38). -/
def execFormatRetireProgramEnd (v : Verify) (s : State) : Host.Outcome State Fault Refusal :=
  match s.inHandM, s.store.format with
  | some ({ purpose := .formatRetire _, abandoned := true }, .program sec line data), _ =>
    let s1 := (s.programmed sec line data v).releaseM
    conclude (s1.abandonedProgram v (fun t => t.raiseIf (decide (v = .failed)) .programFault), [])
  | some ({ purpose := .formatRetire i, abandoned := false }, .program sec line data), some f =>
    let s1 := (s.programmed sec line data v).releaseM
    conclude (s1.formatRetireEnded f i f.todo { sector := sec, line := line } v, [])
  | _, _ => .next s

end Sys2Proof.Machine
end

