-- ==== Sys2Proof/Machine/Dispatch.lean ====
section
/-! DEFINITION. One arm per command: its meaning. -/

namespace Sys2Proof.Machine

def exec (i : Instr) (s : State) : Host.Outcome State Fault Refusal :=
  match i with
  | .powerOnReset => Sys2Proof.Machine.execPowerOnReset s
  | .resetAsserted => Sys2Proof.Machine.execResetAsserted s
  | .resetReleased => Sys2Proof.Machine.execResetReleased s
  | .softReset b => Sys2Proof.Machine.execSoftReset b s
  | .pfailAsserted => Sys2Proof.Machine.execPfailAsserted s
  | .pfailDeasserted => Sys2Proof.Machine.execPfailDeasserted s
  | .registerWrite b => Sys2Proof.Machine.execRegisterWrite b s
  | .faults b => Sys2Proof.Machine.execFaults b s
  | .cqPop b => Sys2Proof.Machine.execCqPop b s
  | .dataIn b => Sys2Proof.Machine.execDataIn b s
  | .inClear b => Sys2Proof.Machine.execInClear b s
  | .dataOut => Sys2Proof.Machine.execDataOut s
  | .get => Sys2Proof.Machine.execGet s
  | .next => Sys2Proof.Machine.execNext s
  | .put => Sys2Proof.Machine.execPut s
  | .delete => Sys2Proof.Machine.execDelete s
  | .discard => Sys2Proof.Machine.execDiscard s
  | .commit => Sys2Proof.Machine.execCommit s
  | .setting => Sys2Proof.Machine.execSetting s
  | .saveSettings => Sys2Proof.Machine.execSaveSettings s
  | .guardSet => Sys2Proof.Machine.execGuardSet s
  | .guardFix => Sys2Proof.Machine.execGuardFix s
  | .sectorQuery => Sys2Proof.Machine.execSectorQuery s
  | .reclaim => Sys2Proof.Machine.execReclaim s
  | .mount => Sys2Proof.Machine.execMount s
  | .format => Sys2Proof.Machine.execFormat s
  | .unknownCommand => Sys2Proof.Machine.execUnknownCommand s
  | .getReadEnd r => Sys2Proof.Machine.execGetReadEnd r s
  | .reclaimReadEnd r => Sys2Proof.Machine.execReclaimReadEnd r s
  | .mountStampReadEnd r => Sys2Proof.Machine.execMountStampReadEnd r s
  | .mountRecordReadEnd r => Sys2Proof.Machine.execMountRecordReadEnd r s
  | .formatStampReadEnd r => Sys2Proof.Machine.execFormatStampReadEnd r s
  | .lineProgramEnd v => Sys2Proof.Machine.execLineProgramEnd v s
  | .openStampProgramEnd v => Sys2Proof.Machine.execOpenStampProgramEnd v s
  | .eraseStampProgramEnd v => Sys2Proof.Machine.execEraseStampProgramEnd v s
  | .eraseEnd v => Sys2Proof.Machine.execEraseEnd v s
  | .eraseSuspended => Sys2Proof.Machine.execEraseSuspended s
  | .formatEraseEnd v => Sys2Proof.Machine.execFormatEraseEnd v s
  | .formatStampProgramEnd v => Sys2Proof.Machine.execFormatStampProgramEnd v s
  | .mountOpenStampEnd v => Sys2Proof.Machine.execMountOpenStampEnd v s
  | .formatOpenStampEnd v => Sys2Proof.Machine.execFormatOpenStampEnd v s
  | .formatRetireProgramEnd v => Sys2Proof.Machine.execFormatRetireProgramEnd v s
  | .controlByte b => Sys2Proof.Machine.execControlByte b s
  | .csRisingEdge => Sys2Proof.Machine.execCsRisingEdge s
  | .commitRecordOffer => Sys2Proof.Machine.execCommitRecordOffer s
  | .vccInOperatingRange => Sys2Proof.Machine.execVccInOperatingRange s

end Sys2Proof.Machine
end

