-- ==== Sys2Proof/Safety.lean ====
section
/-! DEFINITION. What counts as a safe run, in the terms the claims use: the bounds the spec states for whole runs. -/

namespace Sys2Proof.Machine

/-- Each working setting lies inside its range (R165). -/
abbrev Settings.inRange (w : Settings) : Prop :=
  (2 ≤ w.threshold ∧ w.threshold ≤ 8) ∧ w.autoReclaim ≤ 1 ∧ w.suspendLimit ≤ 24

/-- Completion places taken or kept: completions, background commands in flight, and the GET being executed (R155). -/
def State.places (s : State) : Nat :=
  s.cu.completions.length + s.cu.inFlight.length + (if s.cu.executing.isSome then 1 else 0)

/-- The limits of the staging list (R63). -/
abbrev stagingWithin (l : List Staged) : Prop :=
  l.length ≤ Config.stagingOps ∧ stagedBytesOf l ≤ Config.stagingBytes ∧ (l.map Staged.key).Nodup ∧
    ∀ o ∈ l, isUserKey o.key = true ∧ o.bytes ≤ Config.maxLength

/-- A state within the bounds that hold along every run. -/
structure Safe (s : State) : Prop where
  /-- The array is in canonical form. -/
  flash : s.flash.wf = true
  /-- Every command taken has a completion place (R155). -/
  places : s.places ≤ Config.completionQueueSize
  /-- The staging list keeps its limits (R63). -/
  staging : stagingWithin s.tm.staging
  /-- The working settings lie inside their ranges (R165). -/
  settings : s.settings.inRange
  /-- The command queue holds at most 4 entries (R149). -/
  queue : s.cu.queue.length ≤ Config.commandQueueSize
  /-- The input buffer holds at most 256 bytes (R176). -/
  input : s.win.input.length ≤ Config.inputBufferSize
  /-- The enables that do not exist read 0 (R179). -/
  enables : s.win.intEnable &&& 0xF800#16 = 0#16

/-- A key the directory may hold: a user key or the settings key (R44, R45). -/
abbrev directoryKey (k : Key) : Prop :=
  (0x0001#16 ≤ k ∧ k ≤ 0xFEFF#16) ∨ k = 0xFF01#16

/-- No commit and no settings write is in flight (R70, R168). -/
abbrev noWrite (s : State) : Prop :=
  s.tm.commit = none ∧ s.tm.settings = none

/-- What the Store Controller's requests of a mount are for (R122, R124, R131). -/
def MPurpose.ofMount : MPurpose → Bool
  | .mountStamp _ => true
  | .mountRecord => true
  | .mountOpen _ _ _ => true
  | _ => false

/-- The directory's own bounds (R44), with what keeps them: room for the changes in flight (R54, R65, R70, R168), a
mount without such changes, and keys in the scan that the directory may hold. -/
structure DirectorySafe (s : State) : Prop where
  /-- Ascending keys, no two the same (R44). -/
  sorted : dirSorted s.dir = true
  /-- User keys and the settings key (R44). -/
  keys : ∀ e ∈ s.dir, directoryKey e.key
  /-- At most 1024 entries (R44). -/
  size : s.dir.length ≤ Config.directoryCapacity
  /-- A commit in flight leaves a place for each of its new keys (R54, R70). -/
  commit : s.tm.commit ≠ none → s.dir.length + s.newStaged ≤ Config.directoryCapacity
  /-- A settings write in flight leaves a place for a new settings key (R55, R168). -/
  settings : s.tm.settings ≠ none → s.isNew Config.settingsKey = true → s.dir.length + 1 ≤ Config.directoryCapacity
  /-- At most one of the two is in flight (R70, R82). -/
  one : s.tm.commit = none ∨ s.tm.settings = none
  /-- A mount runs without either (R133, R180). -/
  mounting : s.store.st = .mounting → noWrite s
  /-- A request of a mount that is not abandoned belongs to a mount in progress (R121, R132). -/
  request : ∀ q, s.store.req = some q → q.abandoned = false → q.purpose.ofMount = true → s.store.st = .mounting
  /-- While the part is held in reset nothing is under way: the mount has not begun, the Sequencer is as the reset
  left it, and no frame is open (R116, R117, R172, R180). -/
  held : s.heldInReset = true → s.store.st = .mounting ∧ s.arr = Sequencer.reset ∧ ∀ f, s.win.port ≠ .frame f
  /-- The VALUE and TOMBSTONE records of the scan carry keys the directory may hold (R6, R9, R124). -/
  scanned : ∀ r ∈ s.store.scan.recs, r.kind = .value ∨ r.kind = .tombstone → directoryKey r.key

/-- No indication set in `s` is clear in `t` (R178). -/
def faultsKept (s t : State) : Prop :=
  s.win.faults &&& t.win.faults = s.win.faults

/-- Every fixed slot of `s` stands unchanged in `t` (R146). -/
def fixedKept (s t : State) : Prop :=
  ∀ i : GuardIx, (s.guards.get i).fixed = true → t.guards.get i = s.guards.get i

/-! ### The terms in which the claims speak of commands, frames and the array -/

/-- Entry `e` is the head of the command queue and the conditions of R151 for taking it hold. -/
abbrev State.heads (s : State) (e : CmdEntry) (rest : List CmdEntry) : Prop :=
  s.cu.queue = e :: rest ∧ s.store.st ≠ .mounting ∧ s.cu.executing = none ∧
    s.cu.completions.length + s.cu.inFlight.length + 1 ≤ 8

/-- The completion of a command: its tag and code, a status, and the fields A, B, C (R155). -/
def CmdEntry.done (e : CmdEntry) (st : Status) (a b c : Nat) : Completion :=
  { tag := e.tag, code := e.code, status := st, a := BitVec.ofNat 32 a, b := BitVec.ofNat 16 b,
    c := BitVec.ofNat 16 c }

/-- The Command Unit once its head entry has been taken and answered (R151, R153). -/
def CmdUnit.answered (u : CmdUnit) (rest : List CmdEntry) (c : Completion) : CmdUnit :=
  { u with queue := rest, completions := u.completions ++ [c] }

/-- The Command Unit once its head entry has been taken and started in the background (R151, R154). -/
def CmdUnit.started (u : CmdUnit) (e : CmdEntry) (rest : List CmdEntry) : CmdUnit :=
  { u with queue := rest, inFlight := u.inFlight ++ [(e.code, e.tag)] }

/-- The engine starts nothing of its own: the store is not MOUNTED, or it is not IDLE, or none of the three reasons
holds (R84). -/
abbrev State.engineRests (s : State) : Prop :=
  s.store.st ≠ .mounted ∨ s.eng.st ≠ .idle ∨ s.settings.autoReclaim ≠ 1 ∨
    (s.settings.threshold ≤ s.blankCount ∧ s.sectorsIn .erasePending = [] ∧ s.sectorsIn .reclaiming = [] ∧
      s.spaceWaiter = false)

/-- The store is MOUNTED and PFAIL# is high, so nothing bars programs and erases (R112). -/
abbrev State.writable (s : State) : Prop :=
  s.store.st = .mounted ∧ s.pins.pfailLow = false ∧ s.lw.stopped = false

/-- The Log Writer has no record and no opening in progress, and no record is ready (R17, R18). -/
abbrev LogWriter.idle (w : LogWriter) : Prop :=
  w.current = none ∧ w.opening = none ∧ w.commitReady = none ∧ w.reclaimReady = none

/-- An open frame of a direction at an address (R172). -/
abbrev State.frameAt (s : State) (f : Frame) (dir : FrameDir) (a : BitVec 6) : Prop :=
  s.win.port = .frame f ∧ f.dir = dir ∧ f.addr = a

/-- The window after a write frame's byte: the frame stands at address `a`, and SDO drove 00h (R172). -/
def Window.movedTo (w : Window) (f : Frame) (a : BitVec 6) : Window :=
  { w with port := .frame { f with addr := a }, sdo := some 0#8 }

/-- An indication raised in the window (R178). -/
def Window.raised (w : Window) (i : Indication) : Window :=
  { w with faults := w.faults ||| i.mask }

/-- Every byte of the array, but for those of the lines in `except`, reads in `t` as in `s`. -/
def bytesKept (s t : State) (except : Nat → Prop) : Prop :=
  ∀ ln i, i < 16 → ¬ except ln → t.flash.byte ln i = s.flash.byte ln i

/-- What the end of a command's step with a grant says: the outcome is `u` after the grant, which changes nothing but
the Sequencer and what a begun operation changes of the array (R107), and every byte of the array outside the lines in
`stored` reads as before. -/
def endsIn (c : Instr) (s u : State) (stored : Nat → Prop) : Prop :=
  exec c s = .next u.grant ∧ u.grant = { u with flash := u.grant.flash, arr := u.grant.arr } ∧
    bytesKept s u.grant stored

/-- No line is stored to. -/
abbrev nowhere : Nat → Prop := fun _ => False

/-! ### The Log Writer's requests and the ends of background commands -/

/-- One line charged to a reservation (R23). -/
def oneCharged (x y : Stream) (r : Option Nat) : Option Nat :=
  if x = y then r.map (fun n => n - 1) else r

/-- A record placed at the append point of a Log Writer `w`: its first line requested through slot L, the append point
advanced, the line dead and charged to the stream, and the sector marked pending for a record of the COMMIT command
(R19, R23, R34, R37). -/
def State.recordPlaced (s : State) (w : LogWriter) (x : Stream) (r : Record) (p : AppendPoint) (failures : Nat) : State :=
  let cur : InProgress :=
    { stream := x, record := r, place := some { sector := p.sector, line := p.line }, done := 0, failures := failures }
  let lw := { w with
    current := some cur, point := some { p with line := p.line + 1 }
    commitRes := oneCharged x .commit w.commitRes, reclaimRes := oneCharged x .reclaim w.reclaimRes }
  let entry := { s.sector p.sector with
    dead := (s.sector p.sector).dead + 1
    mark := (s.sector p.sector).mark || (decide (x = .commit) && decide (r.key ≠ 0xFF01#16)) }
  { s with
    lw := lw
    sectors := s.sectors.set p.sector.val entry p.sector.isLt
    arr := s.arr.put .l (.program p.sector p.line (r.lineData 0)) }

/-- An opening begun by a Log Writer `w` with candidate `k`: the open stamp, with the next activation number and the
sequence counter's value, requested through slot L; `cur` waits for it (R11, R20, R24). -/
def State.openingPlaced (s : State) (w : LogWriter) (cur : Option InProgress) (k : SectorIx) (early : Bool) : State :=
  let lw := { w with
    current := cur, actCtr := w.actCtr + 1
    opening := some { candidate := k, early := early, activation := w.actCtr, openingSeq := w.seqCtr } }
  { s with lw := lw, arr := s.arr.put .l (.program k 1 (openStampLine w.actCtr w.seqCtr)) }

/-- The Sequencer once the operation in progress of a slot has ended (R105, R107). -/
def Sequencer.ended (a : Sequencer) (x : SlotId) : Sequencer :=
  { a.setSlot x none with busy := none }

/-- The one background command of a code in flight, between those before and after it (R149, R154). -/
abbrev CmdUnit.flies (u : CmdUnit) (before : List (Byte × Byte)) (code tag : Byte) (after : List (Byte × Byte)) : Prop :=
  u.inFlight = before ++ (code, tag) :: after ∧ ∀ p ∈ before, p.1 ≠ code

/-- The completion of a background command in flight (R154, R155). -/
def flightDone (code tag : Byte) (st : Status) (a b c : Nat) : Completion :=
  { tag := tag, code := code, status := st, a := BitVec.ofNat 32 a, b := BitVec.ofNat 16 b, c := BitVec.ofNat 16 c }

/-- The Command Unit once a background command has left the in-flight list and posted its completion (R154). -/
def CmdUnit.ended (u : CmdUnit) (inFlight : List (Byte × Byte)) (c : Completion) : CmdUnit :=
  { u with inFlight := inFlight, completions := u.completions ++ [c] }

end Sys2Proof.Machine
end

