-- ==== Sys2Proof/Certificates/Slice0/Obligations.lean ====
section
/-! DEFINITION. The statements for the provers: what the machine keeps along every step, what each command does, and
what its encodings say. -/

open Sys2Proof Sys2Proof.Machine

/-! ### The step -/

/-- A step takes the command at the front of the queue and is what `exec` does with it on the queue's rest. On an empty
queue a microsecond passes: the running time of a RUNNING erase grows by one, and nothing else changes (the model's own
choice, log 7). -/
def Obligations.StepRunsFront : Prop :=
  (∀ (c : Instr) (rest : List Instr) (s : State), s.pending = c :: rest → step s = exec c { s with pending := rest }) ∧
  (∀ (s : State) (e : EraseRun), s.pending = [] → s.arr.erase = some e → e.cond = .running →
    step s = .next { s with arr := { s.arr with erase := some { e with time := e.time + 1 } } }) ∧
  (∀ s : State, s.pending = [] → (∀ e, s.arr.erase = some e → e.cond ≠ .running) → step s = .next s)

/-- The state after a power-on reset lies within every bound that the claims below keep along a run. -/
def Obligations.ResetIsSafe : Prop :=
  Safe State.reset ∧ DirectorySafe State.reset

/-- Before the automatic mount changes them, the 64 locations read the values of the register map's last column
(R175); the write-only, undefined and port locations read 00h (R173). -/
def Obligations.WindowAtReset : Prop :=
  State.reset.window =
    [0x4C#8, 0x10#8, 0x01#8, 0x00#8, 0x11#8] ++ List.replicate 14 0x00#8 ++ [0x04#8] ++ List.replicate 28 0x00#8 ++
      [0x03#8, 0x01#8, 0x18#8] ++ List.replicate 13 0x00#8

/-! ### What every step keeps -/

/-- The array's operation in progress is a slot's request (R105). -/
abbrev performs (s : State) (x : SlotId) (op : ArrayOp) : Prop :=
  s.arr.busy = some x ∧ s.arr.slot x = some { op := op, inProgress := true }

/-- A slot holds a request that waits (R105). -/
abbrev waits (s : State) (x : SlotId) (op : ArrayOp) : Prop :=
  s.arr.slot x = some { op := op, inProgress := false }

/-- Every step keeps the canonical form of the flash array: addresses in the array and strictly rising, no entry that
reads as a blank byte, and the written and the undefined lines in rising order. Every step leaves a written line
written but at the end of an erase of its sector, and a line of undefined bytes undefined until a PROGRAM of it or an
erase of its sector ends. -/
def Obligations.FlashCanonicalKept : Prop :=
  (∀ s t : State, s.flash.wf = true → step s = .next t → t.flash.wf = true) ∧
  (∀ (s t : State) (ln : Nat), step s = .next t →
    let erased := ∃ x sec, performs s x (.erase sec) ∧ inSector sec ln = true
    let programmed := ∃ x sec line data, performs s x (.program sec line data) ∧ ln = lineNo sec line
    (ln ∈ s.flash.written → ¬ erased → ln ∈ t.flash.written) ∧
    (undefKind s.flash.undef ln ≠ none → ¬ erased → ¬ programmed → undefKind t.flash.undef ln ≠ none))

/-- Completions, background commands in flight and an executing GET never take more than the 8 places of the completion
queue: every step keeps the bound. -/
def Obligations.PlacesKept : Prop :=
  ∀ s t : State, s.places ≤ 8 → step s = .next t → t.places ≤ 8

/-- Every step keeps the limits of the staging list: at most 16 operations and 2048 payload bytes, user keys only, no
two operations for one key, no value longer than 242 bytes. -/
def Obligations.StagingLimitsKept : Prop :=
  ∀ s t : State, stagingWithin s.tm.staging → step s = .next t → stagingWithin t.tm.staging

/-- A fixed guard slot keeps its range, mode and fixed flag through every command but a power-on reset. -/
def Obligations.FixedGuardsKept : Prop :=
  ∀ (c : Instr) (s t : State), c ≠ .powerOnReset → exec c s = .next t → fixedKept s t

/-- An indication once set stays set through every command but a write to FAULTS and the resets. -/
def Obligations.IndicationsSticky : Prop :=
  ∀ (c : Instr) (s t : State), (∀ b, c ≠ .faults b) → c ≠ .powerOnReset → c ≠ .resetAsserted →
    (∀ b, c ≠ .softReset b) → exec c s = .next t → ∀ i : Indication, s.indicated i = true → t.indicated i = true

/-- Every step keeps each working setting inside its range, at most 4 commands queued, at most 256 bytes in the input
buffer, and the enables of INT-ENABLE that do not exist at 0. -/
def Obligations.SettingsAndBuffersBounded : Prop :=
  ∀ s t : State,
    s.settings.inRange ∧ s.cu.queue.length ≤ 4 ∧ s.win.input.length ≤ 256 ∧ s.win.intEnable &&& 0xF800#16 = 0#16 →
      step s = .next t →
        t.settings.inRange ∧ t.cu.queue.length ≤ 4 ∧ t.win.input.length ≤ 256 ∧
          t.win.intEnable &&& 0xF800#16 = 0#16

/-- Every step keeps the directory as R44 gives it: keys rising, user keys and the settings key only, at most 1024
entries; and with it what lets the changes in flight keep it so: the places a commit or a settings write will take are
free, at most one of the two is in flight, a mount runs without either, nothing is under way while the part is held in
reset, and the scan's records carry such keys. -/
def Obligations.DirectoryKept : Prop :=
  ∀ s t : State, stagingWithin s.tm.staging → DirectorySafe s → step s = .next t → DirectorySafe t

/-- No line program and no sector erase begins in a step at whose end the write bar holds for PFAIL#, POWER-HOLD or
UNMOUNTED, or that READ-ONLY lasts through: one in progress after the step was in progress before it. In a step in
which the store leaves MOUNTED for READ-ONLY, every program and erase that waits in slot L, C or M is refused, so none
is left to begin. -/
def Obligations.NothingBeginsUnderWriteBar : Prop :=
  (∀ (s t : State) (x : SlotId) (op : ArrayOp), step s = .next t →
    (t.pins.pfailLow = true ∨ t.store.st = .powerHold ∨ t.store.st = .unmounted ∨
      (s.store.st = .readOnly ∧ t.store.st = .readOnly)) →
    op.isWrite = true → t.arr.slot x = some { op := op, inProgress := true } →
      s.arr.slot x = some { op := op, inProgress := true }) ∧
  (∀ s t : State, step s = .next t → s.store.st = .mounted → s.store.req = none → t.store.st = .readOnly →
    t.arr.waitingWrite .l = false ∧ t.arr.waitingWrite .c = false ∧ t.arr.waitingWrite .m = false)

/-! ### Layouts and codes -/

/-- The lines of a record: (14 + length) / 16 rounded up, by the table's rows, written in the header's line count; the
fixed sizes of the marker kinds and of the settings record. -/
def Obligations.LineCounts : Prop :=
  (∀ r : Record, r.length ≤ 242 →
    14 + r.length ≤ 16 * r.lines ∧ 16 * r.lines < 14 + r.length + 16 ∧ 1 ≤ r.lines ∧ r.lines ≤ 16 ∧
      (byteAt r.bytes 5).toNat = r.lines ∧ r.bytes.length = 16 * r.lines) ∧
  (∀ l, l ≤ 2 → linesFor l = 1) ∧
  (∀ n l, 2 ≤ n → n ≤ 16 → 16 * n - 29 ≤ l → l ≤ 16 * n - 14 → linesFor l = n) ∧
  (∀ k txn seq, (Staged.record { key := k, value := none } true txn seq).lines = 1) ∧
  (∀ n txn seq, (commitRecord n txn seq).lines = 1) ∧
  (∀ v seq, (reclaimBeginRecord v seq).lines = 1) ∧ (∀ v seq, (retireRecord v seq).lines = 1) ∧
  (∀ v n seq, (reclaimEndRecord v n seq).lines = 2) ∧
  (∀ w g seq, (settingsRecord (settingsPayload w g) seq).lines = 5)

/-- What the Log Writer writes, the walk and the mount read back: the lines of any record within the values of its
fields, read from any line where it fits, begin a valid record, and that record is the one written. -/
def Obligations.RecordRoundTrip : Prop :=
  ∀ (r : Record) (p : Nat), r.fieldsFit = true → r.operandsFit = true → (r.relocated = true → r.solo = true) →
    (r.solo = false → r.kind = .value ∨ r.kind = .tombstone) → r.txn ≤ 65535 → 1 ≤ r.seq → r.seq ≤ 0xFFFFFFFE →
    p + r.lines ≤ 256 →
      validRecordAt p { bytes := r.bytes, lines := r.lines, checkOk := recordCheckOk r.bytes r.lines } = some r

/-- Lines of a sector, each of which ended its last PROGRAM well or is blank: none holds undefined bytes (R2, R103). -/
abbrev linesKnown (s : State) (sec : SectorIx) (p n : Nat) : Prop :=
  ∀ i, i < n → undefKind s.flash.undef (lineNo sec (p + i)) = none

/-- What a READ returns. The line form gives the lines named, byte for byte as the array holds them; the record form
with a count gives that many lines, stopping at line 255; with HEADER it takes the count from the header line as the
array returned it, when that is 1–16 and the record ends by line 255, and line p alone otherwise. The check code is
judged by the length field, the lines read and the CRC. A blank line gives one line of FFh, and the lines that hold a
record give back its bytes and verify. A line of undefined bytes gives 16 bytes of a new free value at each READ, which
are no valid erase stamp where the array holds none and neither a blank line nor a valid open stamp where a mount's own
was cut; the free value's form, that only these limits hold, is the model's own choice (logs 3 and 17). No READ changes
anything but the count of the free values drawn. -/
def Obligations.ReadReturns : Prop :=
  (∀ (s : State) (sec : SectorIx) (p n : Nat), p + n ≤ 256 → linesKnown s sec p n →
    (s.readSpan (lineNo sec p) n).2 = s ∧ (s.readSpan (lineNo sec p) n).1.length = 16 * n ∧
      ∀ i j, i < n → j < 16 →
        byteAt (s.readSpan (lineNo sec p) n).1 (16 * i + j) = s.flash.byte (lineNo sec (p + i)) j) ∧
  (∀ (s : State) (sec : SectorIx) (p : Nat) (len : ReadLen) (r : ReadOutcome),
    let rr := (s.readRecord sec p len r).1
    let l := (byteAt rr.bytes 4).toNat
    (∃ drawn, (s.readRecord sec p len r).2 = { s with freeCount := drawn }) ∧
    (r = .stored → rr.bytes = (s.readSpan (lineNo sec p) rr.lines).1) ∧
    (rr.checkOk = true ↔
      l ≤ 242 ∧ (14 + l + 15) / 16 ≤ rr.lines ∧ (crc16 (rr.bytes.take (12 + l))).toNat = field16 rr.bytes (12 + l)) ∧
    (∀ n, len = .lines n → rr.lines = min n (256 - p)) ∧
    (len = .header →
      let count := (byteAt (returned r (s.readLine (lineNo sec p)).1) 5).toNat
      let whole := 1 ≤ count ∧ count ≤ 16 ∧ p + count - 1 ≤ 255
      (whole → rr.lines = count) ∧ (¬ whole → rr.lines = 1))) ∧
  (∀ (s : State) (sec : SectorIx) (p : Nat), p < 256 → linesKnown s sec p 1 →
    (∀ j, j < 16 → s.flash.byte (lineNo sec p) j = 0xFF#8) →
    s.readRecord sec p .header .stored =
      ({ bytes := List.replicate 16 0xFF#8, lines := 1, checkOk := false }, s)) ∧
  (∀ (s : State) (sec : SectorIx) (p : Nat) (rec : Record), rec.length ≤ 242 → p + rec.lines ≤ 256 →
    linesKnown s sec p rec.lines →
    (∀ i j, i < rec.lines → j < 16 → s.flash.byte (lineNo sec (p + i)) j = byteAt (rec.lineData i) j) →
    ∀ len, len = .header ∨ len = .lines rec.lines →
      s.readRecord sec p len .stored = ({ bytes := rec.bytes, lines := rec.lines, checkOk := true }, s)) ∧
  (∀ (s : State) (ln : Nat) (k : UndefKind), undefKind s.flash.undef ln = some k →
    (s.readLine ln).1.length = 16 ∧ (s.readLine ln).2 = { s with freeCount := s.freeCount + 1 } ∧
    (k = .free → ∀ i, i < 16 →
      byteAt (s.readLine ln).1 i = (Config.freeLine s.freeCount).extractLsb' (8 * (15 - i)) 8) ∧
    (k = .noEraseStamp → validEraseStamp (s.readLine ln).1 = none) ∧
    (k = .noOpenStamp → judgeOpenStamp (s.readLine ln).1 = .invalid))

/-- Each stamp is one line and is read back as it was written; a blank line is no valid erase stamp and reads as a blank
open stamp. -/
def Obligations.StampsRoundTrip : Prop :=
  (∀ g n, 1 ≤ g → g ≤ 65535 → 1 ≤ n → n ≤ 100000 →
    (eraseStampLine g n).length = 16 ∧ validEraseStamp (eraseStampLine g n) = some (g, n)) ∧
  (∀ a q, 1 ≤ a → a ≤ 0xFFFFFFFF → 1 ≤ q → q ≤ 0xFFFFFFFF →
    (openStampLine a q).length = 16 ∧ judgeOpenStamp (openStampLine a q) = .valid a q) ∧
  validEraseStamp (List.replicate 16 0xFF#8) = none ∧ judgeOpenStamp (List.replicate 16 0xFF#8) = .blank

/-- The settings payload is 52 bytes of the known version. LOAD reads back from it the settings and, into slots that are
not fixed, the guard slots that were saved, fixed ones as fixed. -/
def Obligations.SettingsPayloadRoundTrip : Prop :=
  ∀ (w : Settings) (g g0 : Vector GuardSlot 8), w.inRange →
    (∀ i : GuardIx, g.get i = GuardSlot.cleared ∨
      ((g.get i).inUse = true ∧ (g.get i).mode ≠ .none ∧ rangeAcceptable (g.get i).low (g.get i).high = true)) →
    (∀ i : GuardIx, (g0.get i).fixed = false) →
      (settingsPayload w g).length = 52 ∧ knownVersion (settingsPayload w g) = true ∧
        Settings.ofPayload (settingsPayload w g) = w ∧ loadGuards (settingsPayload w g) g0 = g

/-! ### Resets and PFAIL# -/

/-- A power-on reset acts on every block: all registers take their reset values, every guard slot is cleared, fixed
ones included, an open frame is abandoned, and the array keeps what it holds. RESET# driven low resets every block but
the fixed guard slots, and holds the part. The model's own choices, not rules of the spec: which fields a reset puts
back where the spec does not name them (log 30), and that RESET# already low changes nothing, an event that cannot
occur (log 1). An operation that a reset cuts leaves its line written, with undefined bytes, or its sector without a
valid erase stamp and every line undefined: so a line 0 whose erase stamp or whose sector's erase was cut reads as no
valid stamp. -/
def Obligations.Resets : Prop :=
  (∀ s : State, exec .powerOnReset s = .next
    { State.reset with
      flash := s.flash
      win := { Window.reset with port := s.win.port.afterReset }
      pins := { s.pins with vccInRange := false }
      freeCount := s.freeCount
      pending := s.pending }) ∧
  (∀ s : State, s.pins.resetLow = false → exec .resetAsserted s = .next
    { State.reset with
      flash := s.flash
      guards := s.guards.map (fun g => if g.fixed then g else GuardSlot.cleared)
      win := { Window.reset with port := s.win.port.afterReset }
      pins := { s.pins with resetLow := true }
      freeCount := s.freeCount
      pending := s.pending }) ∧
  (∀ s : State, s.pins.resetLow = true → exec .resetAsserted s = .next s) ∧
  (∀ (s t : State) (x : SlotId) (c : Instr) (op : ArrayOp), waits s x op → performs s.grant x op →
    c = .powerOnReset ∨ c = .resetAsserted → exec c s.grant = .next t →
    let undefined := fun ln => undefKind t.flash.undef ln ≠ none
    (∀ sec line data, op = .program sec line data →
      lineNo sec line ∈ t.flash.written ∧ undefined (lineNo sec line) ∧
        (line = 0 → validEraseStamp (t.readLine (lineNo sec 0)).1 = none)) ∧
    (∀ sec, op = .erase sec →
      (∀ ln, inSector sec ln = true → undefined ln) ∧ validEraseStamp (t.readLine (lineNo sec 0)).1 = none))

/-- The state in which an automatic mount has just begun: MOUNTING in STAMPS, the RAM state empty, and the READ of lines
0 and 1 of sector 0 in progress in slot M (R117, R121, R122; log 30 for the fields without a stated reset value). -/
def mountBegun (s : State) (pins : Pins) : State :=
  { s with
    sectors := Vector.replicate 32 SectorEntry.reset
    dir := []
    lw := LogWriter.reset
    eng := Engine.reset
    tm := { s.tm with staging := [], held := false }
    arr := { Sequencer.reset with m := some { op := .readLines 0 0 2, inProgress := true }, busy := some .m }
    store := { s.store with
      st := .mounting, cause := .none, dirValid := false, phase := .stamps, result := .none, generation := 0,
      mount := some .automatic, scan := MountScan.empty,
      req := some { purpose := .mountStamp 0, abandoned := false } }
    pins := pins }

/-- The state in which an automatic mount that began while PFAIL# was asserted has been aborted at once: POWER-HOLD, the
directory not valid, the result ABORTED, and no request placed (R121, R132). -/
def mountCut (s : State) (pins : Pins) : State :=
  let u := mountBegun s pins
  { u with
    arr := Sequencer.reset
    store := { u.store with st := .powerHold, result := .aborted, mount := none, req := none } }

/-- RESET# released with VCC in range, and VCC coming into range with RESET# high, end the reset: from the Sequencer as
a reset leaves it, the automatic mount has begun, and while PFAIL# is asserted it has been aborted at once. Guard slots,
settings and the window stand. While the other of the two still holds the part, only the level is taken. -/
def Obligations.ReleaseBeginsMount : Prop :=
  (∀ s : State, s.pins = { resetLow := true, pfailLow := false, vccInRange := true } → s.arr = Sequencer.reset →
    exec .resetReleased s = .next (mountBegun s { s.pins with resetLow := false })) ∧
  (∀ s : State, s.pins = { resetLow := false, pfailLow := false, vccInRange := false } → s.arr = Sequencer.reset →
    exec .vccInOperatingRange s = .next (mountBegun s { s.pins with vccInRange := true })) ∧
  (∀ s : State, s.pins = { resetLow := true, pfailLow := true, vccInRange := true } → s.arr = Sequencer.reset →
    exec .resetReleased s = .next (mountCut s { s.pins with resetLow := false })) ∧
  (∀ s : State, s.pins = { resetLow := false, pfailLow := true, vccInRange := false } → s.arr = Sequencer.reset →
    exec .vccInOperatingRange s = .next (mountCut s { s.pins with vccInRange := true })) ∧
  (∀ s : State, s.pins.resetLow = true → s.pins.vccInRange = false → s.arr = Sequencer.reset →
    exec .resetReleased s = .next { s with pins := { s.pins with resetLow := false } } ∧
      exec .vccInOperatingRange s = .next { s with pins := { s.pins with vccInRange := true } })

/-- A byte with bit 0 set that completes at 3Fh resets every block but the fixed guard slots and begins the automatic
mount; the port then takes no byte until CS# has been high. While PFAIL# is asserted that mount is aborted at once. A
byte with bit 0 clear is ignored. The model's own choice, no rule of the spec: SDO holds 00h once the byte has reset the
part (log 32). -/
def Obligations.SoftReset : Prop :=
  (∀ (s : State) (f : Frame) (b : Byte), s.frameAt f .write 0x3F#6 → b.getLsbD 0 = true →
    let u := { State.reset with
      flash := s.flash
      guards := s.guards.map (fun g => if g.fixed then g else GuardSlot.cleared)
      win := { Window.reset with port := .waitHigh, sdo := some 0#8 }
      freeCount := s.freeCount
      pending := s.pending }
    exec (.softReset b) s = .next (if s.pins.pfailLow then mountCut u s.pins else mountBegun u s.pins)) ∧
  (∀ (s : State) (f : Frame) (b : Byte), s.frameAt f .write 0x3F#6 → b.getLsbD 0 = false →
    exec (.softReset b) s = .next { s with win := s.win.movedTo f 0x00#6 })

/-- Sectors in a state. -/
abbrev countIn (v : Vector SectorEntry 32) (st : SectorState) : Nat :=
  (allSectors.filter (fun i => decide ((v.get i).st = st))).length

/-- The sectors a format has listed and not yet retired, the one whose RETIRE program is in progress included (R137; log
38). -/
def formatListed (f : FormatFlight) : List SectorIx :=
  match f.step with
  | .retiring i todo => i :: todo
  | _ => f.toRetire

/-- PFAIL# asserted, in whatever state the part is once it is out of reset, completes: the indication is raised, the
store is in POWER-HOLD with the directory valid as R120 gives, the array keeps its bytes and marks, every READ and
every operation in progress but a begun erase stays in its slot, and the queues of commands stand. From MOUNTED and
READ-ONLY no erase is left begun, no program or erase waits in slot L, C or M, and the staging list stands, held when
MOUNTED and not empty. From MOUNTING the mount is aborted, no program or erase waits in slot M, and a MOUNT command
completes POWER-FAIL. From FORMATTING no erase is left begun and none, nor a program, waits in slot M, the sector
being erased, or waiting for its stamp, is ERASE-PENDING, the listed sectors are RETIRED without a location (for the
one whose RETIRE program is in progress the model's own choice, log 38), and FORMAT completes POWER-FAIL. PFAIL#
deasserted changes its level and nothing else: the store stays in POWER-HOLD, where the write bar holds on. -/
def Obligations.PfailEntersPowerHold : Prop :=
  (∀ s : State, s.pins.pfailLow = false → s.heldInReset = false →
    ∃ t, exec .pfailAsserted s = .next t ∧ t.store.st = .powerHold ∧ t.pins = { s.pins with pfailLow := true } ∧
      t.indicated .powerFail = true ∧ t.flash = s.flash ∧
      t.store.dirValid = (match s.store.st with
        | .mounted => true
        | .readOnly => true
        | .powerHold => s.store.dirValid
        | _ => false) ∧
      t.guards = s.guards ∧ t.settings = s.settings ∧ t.pending = s.pending ∧ t.cu.queue = s.cu.queue ∧
      (∀ x r, s.arr.slot x = some r → (r.op.isWrite = false ∨ r.inProgress = true) →
        (∀ e, s.arr.erase = some e → e.slot ≠ x) →
          ∃ b, t.arr.slot x = some { r with inProgress := b } ∧ (r.inProgress = true → b = true)) ∧
      (s.store.st = .mounted ∨ s.store.st = .readOnly →
        t.lw.stopped = true ∧ t.arr.erase = none ∧ t.arr.waitingWrite .l = false ∧ t.arr.waitingWrite .c = false ∧
          t.arr.waitingWrite .m = false ∧ t.tm.staging = s.tm.staging) ∧
      (s.store.st = .mounted → s.tm.staging ≠ [] → t.tm.held = true) ∧
      (s.store.st = .mounting →
        t.arr.waitingWrite .m = false ∧ t.store.result = .aborted ∧ t.store.mount = none ∧ t.sectors = s.sectors ∧
          (s.store.mount = some .automatic → t.cu = s.cu) ∧
          ∀ before tag after, s.store.mount = some (.command tag) → s.cu.flies before 0x50#8 tag after →
            t.cu = s.cu.ended (before ++ after) (flightDone 0x50#8 tag .powerFail 4 0 0)) ∧
      (∀ f, s.store.st = .formatting → s.store.format = some f →
        t.arr.erase = none ∧ t.arr.waitingWrite .m = false ∧ t.store.format = none ∧
          (∀ j ∈ formatListed f, (t.sector j).st = .retired ∧ (t.sector j).retireLoc = none ∧
            t.indicated .sectorRetired = true) ∧
          (∀ j todo, f.step = .erasing j todo ∨
              (f.step = .stamping j todo ∧ ∀ r, s.arr.m = some r → r.inProgress = false) → j ∉ formatListed f →
            t.sector j = { s.sector j with st := .erasePending, live := 0, dead := 0 }) ∧
          ∀ before tag after, s.cu.flies before 0x51#8 tag after →
            t.cu = s.cu.ended (before ++ after)
              (flightDone 0x51#8 tag .powerFail f.generation (countIn t.sectors .blank)
                (countIn t.sectors .retired)))) ∧
  (∀ s : State, exec .pfailDeasserted s = .next { s with pins := { s.pins with pfailLow := false } } ∧
    (s.store.st = .powerHold →
      State.writeBar { s with pins := { s.pins with pfailLow := false } } = some .powerFail))

/-! ### The Array Sequencer -/

/-- An ERASE is held: a READ of its sector is queued or in progress in some slot (R109). -/
abbrev eraseHeld (s : State) (op : ArrayOp) : Prop :=
  ∃ sec y r, op = .erase sec ∧ s.arr.slot y = some r ∧ r.op.readsSector = some sec

/-- The write bar holds (R112). -/
abbrev barHolds (s : State) : Prop :=
  s.pins.pfailLow = true ∨ s.store.st = .powerHold ∨ s.store.st = .readOnly ∨ s.store.st = .unmounted

/-- A slot holds a request that may be granted: it waits, it is no held ERASE, nothing bars it, and in slot M the
others are empty and no erase has begun from another slot (R106, R107, R109, R112). -/
abbrev grantable (s : State) (x : SlotId) : Prop :=
  ∃ op, waits s x op ∧ ¬ eraseHeld s op ∧ (op.isWrite = true → ¬ barHolds s) ∧
    (x = .m → (s.store.st = .mounting ∨ s.store.st = .formatting ∨ op.isWrite = false) ∧
      s.arr.h = none ∧ s.arr.l = none ∧ s.arr.c = none ∧ ∀ e, s.arr.erase = some e → e.slot = .m)

/-- An ERASE granted to a slot finds a request of H or L waiting, and may be suspended (R110). -/
abbrev suspendsAtOnce (s : State) (x : SlotId) : Prop :=
  ((x ≠ .h ∧ s.arr.waiting .h = true) ∨ (x ≠ .l ∧ s.arr.waiting .l = true)) ∧ 0 < s.settings.suspendLimit

/-- The erase as it begins (R110). -/
def eraseBegun (s : State) (x : SlotId) : EraseRun :=
  { slot := x
    cond := if suspendsAtOnce s x then .suspending else .running
    time := 0
    suspensions := if suspendsAtOnce s x then 1 else 0
    limit := s.settings.suspendLimit }

/-- What the begin of an operation makes of the array: its line is written and holds undefined bytes, its erase leaves
every line of the sector undefined, line 0 no valid erase stamp; every other line stands (R2, R3, R116). A mount's open
stamp program that is cut leaves neither a blank line 1 nor a valid stamp there (R132; log 17). -/
def beginsOn (f g : Flash) (op : ArrayOp) (ofMount : Prop) : Prop :=
  (∀ sec line data, op = .program sec line data →
    let n := lineNo sec line
    let torn : UndefKind → Prop := fun k =>
      (line = 0 → k = .noEraseStamp) ∧ (line = 1 → ofMount → k = .noOpenStamp) ∧
        (line ≠ 0 → ¬ (line = 1 ∧ ofMount) → k = .free)
    (∀ ln, ln ∈ g.written ↔ ln = n ∨ ln ∈ f.written) ∧ (∃ k, undefKind g.undef n = some k ∧ torn k) ∧
      ∀ ln, ln ≠ n → undefKind g.undef ln = undefKind f.undef ln) ∧
  (∀ sec, op = .erase sec →
    g.written = f.written ∧ undefKind g.undef (lineNo sec 0) = some .noEraseStamp ∧
      (∀ line, 0 < line → line < 256 → undefKind g.undef (lineNo sec line) = some .free) ∧
      ∀ ln, inSector sec ln = false → undefKind g.undef ln = undefKind f.undef ln)

/-- The grant goes to a slot and leaves an aging count: its request becomes the operation in progress, the array is as
its begin leaves it, and no byte changes (R107). -/
abbrev grantsTo (s : State) (x : SlotId) (aging : Nat) : Prop :=
  ∃ op, waits s x op ∧ s.grant = { s with flash := s.grant.flash, arr := s.grant.arr } ∧
    s.grant.arr = { s.arr.setSlot x (some { op := op, inProgress := true }) with
      busy := some x
      aging := aging
      erase := match op with
        | .erase _ => some (eraseBegun s x)
        | _ => s.arr.erase } ∧
    (op.isWrite = false → s.grant.flash = s.flash) ∧ bytesKept s s.grant nowhere ∧
    beginsOn s.flash s.grant.flash op (x = .m ∧ s.store.st = .mounting)

/-- The grant and the suspension of an erase. With no operation in progress and no erase begun the grant goes by fixed
priority, H before L before C, to slot C first once its aging count is 8, and to slot M with the others empty; the
count rises, up to 8, at a grant to H or L while slot C holds a request that may be granted, is 0 after a grant to C,
and stands otherwise. A granted ERASE is RUNNING under the working SUSPEND-LIMIT, or SUSPENDING at once when H or L
waits. A PROGRAM as it begins makes its line written and its bytes undefined, an ERASE every line of its sector
undefined, with no valid erase stamp. With the erase SUSPENDED only H and L are granted, and with neither it is
RUNNING again. A PROGRAM or ERASE placed under the write bar is refused with its status; a request placed in H or L
makes a RUNNING erase below its limit SUSPENDING. A waiting PROGRAM or ERASE of slot C that the bar refuses empties
the slot and the count. A READ in slot M is granted outside MOUNTING and FORMATTING too, by inference from R112
against R106 (log 18). -/
def Obligations.GrantAndSuspension : Prop :=
  (∀ (s : State) (x : SlotId), s.eligible x = true ↔ grantable s x) ∧
  (∀ s : State, s.arr.busy ≠ none → s.grant = s) ∧
  (∀ s : State, s.arr.busy = none → s.arr.erase = none →
    let aged := grantable s .c ∧ 8 ≤ s.arr.aging
    (aged → grantsTo s .c 0) ∧
    (∀ n, ¬ aged → (grantable s .c → n = min 8 (s.arr.aging + 1)) → (¬ grantable s .c → n = s.arr.aging) →
      (grantable s .h → grantsTo s .h n) ∧ (¬ grantable s .h → grantable s .l → grantsTo s .l n)) ∧
    (¬ grantable s .h → ¬ grantable s .l →
      (grantable s .c → grantsTo s .c 0) ∧
      (¬ grantable s .c → grantable s .m → grantsTo s .m s.arr.aging) ∧
      (¬ grantable s .c → ¬ grantable s .m → s.grant = s))) ∧
  (∀ (s : State) (e : EraseRun), s.arr.busy = none → s.arr.erase = some e →
    (e.cond = .suspended →
      (grantable s .h → grantsTo s .h s.arr.aging) ∧
      (¬ grantable s .h → grantable s .l → grantsTo s .l s.arr.aging) ∧
      (¬ grantable s .h → ¬ grantable s .l → s.grant = { s with arr := { s.arr with
        busy := some e.slot, erase := some { e with cond := .running } } })) ∧
    (e.cond ≠ .suspended → s.grant = s)) ∧
  (∀ (s : State) (x : SlotId) (op : ArrayOp),
    let joined := s.arr.setSlot x (some { op := op, inProgress := false })
    (op.isWrite = true →
      (s.pins.pfailLow = true ∨ s.store.st = .powerHold → s.place x op = (s, some .powerFail)) ∧
      (s.pins.pfailLow = false → s.store.st = .readOnly → s.place x op = (s, some .readOnly)) ∧
      (s.pins.pfailLow = false → s.store.st = .unmounted → s.place x op = (s, some .notMounted))) ∧
    (op.isWrite = false ∨ ¬ barHolds s →
      (∀ e, s.arr.erase = some e → x = .h ∨ x = .l → e.cond = .running → e.suspensions < e.limit →
        s.place x op = ({ s with arr := { joined with
          erase := some { e with cond := .suspending, suspensions := e.suspensions + 1 } } }, none)) ∧
      ((∀ e, s.arr.erase = some e → x = .c ∨ x = .m ∨ e.cond ≠ .running ∨ e.limit ≤ e.suspensions) →
        s.place x op = ({ s with arr := joined }, none)))) ∧
  (∀ s : State, s.arr.waitingWrite .c = true →
    (s.dropWaiting .c).arr.c = none ∧ (s.dropWaiting .c).arr.aging = 0)

/-! ### Frames and locations -/

/-- The DATA-OUT byte taken as its transfer begins: the byte at OUT-POS, whose completion advances OUT-POS, or 00h at or
past OUT-LEN (R177). -/
def outTaken (output : List Byte) (pos : Nat) : OutByte :=
  if pos < output.length then { byte := byteAt output pos, advances := true } else { byte := 0#8, advances := false }

/-- The control byte of a frame sets direction and starting address; a read frame captures every location, and takes
the first DATA-OUT byte when it starts there; bit 6 makes the frame ignored. While the part is held in reset no frame
begins, and a frame that was open across a reset is dropped whole: the port takes no byte until CS# has been high. CS#
rising ends whatever frame is open and re-arms the port after a reset; SDO is then high-impedance, and a byte it cut
short has had no effect: OUT-POS and every other part of the state stand. The model's own choices, not rules of the
spec: a control byte out of turn, which cannot occur, leaves the state (log 1), and SDO is high-impedance in a frame
dropped because of a reset (log 32). -/
def Obligations.FrameBeginsAndEnds : Prop :=
  (∀ (s : State) (b : Byte), s.win.port = .ready → s.heldInReset = false → b.getLsbD 6 = true →
    exec (.controlByte ⟨b, false⟩) s = .next { s with win := { s.win with
      port := .frame { dir := .ignored, addr := b.extractLsb' 0 6, snapshot := [], out := none }, sdo := some 0#8 } }) ∧
  (∀ (s : State) (b : Byte), s.win.port = .ready → s.heldInReset = false → b.getLsbD 6 = false → b.getLsbD 7 = false →
    exec (.controlByte ⟨b, false⟩) s = .next { s with win := { s.win with
      port := .frame { dir := .write, addr := b.extractLsb' 0 6, snapshot := [], out := none }, sdo := some 0#8 } }) ∧
  (∀ (s : State) (b : Byte), s.win.port = .ready → s.heldInReset = false → b.getLsbD 6 = false → b.getLsbD 7 = true →
    exec (.controlByte ⟨b, false⟩) s = .next { s with win := { s.win with
      port := .frame
        { dir := .read, addr := b.extractLsb' 0 6, snapshot := s.window
          out := if b.extractLsb' 0 6 = 0x24#6 then some (outTaken s.win.output s.win.outPos) else none }
      sdo := some 0#8 } }) ∧
  (∀ (s : State) (b : FirstByte), s.win.port = .ready → s.heldInReset = true ∨ b.acrossReset = true →
    exec (.controlByte b) s = .next { s with win := { s.win with port := .waitHigh, sdo := none } }) ∧
  (∀ (s : State) (b : FirstByte), s.win.port ≠ .ready → exec (.controlByte b) s = .next s) ∧
  (∀ s : State, exec .csRisingEdge s = .next { s with win := { s.win with port := .ready, sdo := none } })

/-- The read-write locations: INT-ENABLE, CMD-TAG, CMD-KEY, CMD-LEN and CMD-ARG (R175). -/
abbrev readWrite (a : BitVec 6) : Prop :=
  0x08#6 ≤ a ∧ a ≤ 0x11#6

/-- A byte written to a read-write location is what that location then reads, and every other location reads as before
(bits 15–11 of INT-ENABLE read 0); a byte at a read-only or an undefined location, or one with bit 0 clear at
SOFT-RESET, changes nothing but the frame's address. A byte written to CMD-GO offers the command it is the code of,
with the parameter locations as they stand: with a place free the entry joins the tail, and a PUT claims the input
buffer; with 4 entries the command is discarded and COMMAND-OVERRUN raised. The store state and the code do not
matter. The model's own inference, no rule of the spec: that the byte with bit 0 clear at SOFT-RESET may come by this
command as well as by SOFT_RESET (log 20, DEDUCED). -/
def Obligations.RegisterWrite : Prop :=
  (∀ (s : State) (f : Frame) (a : BitVec 6) (b : Byte), s.frameAt f .write a → readWrite a →
    s.win.intEnable &&& 0xF800#16 = 0#16 →
    ∃ t, exec (.registerWrite b) s = .next t ∧
      byteAt t.window a.toNat = (if a = 0x08#6 then b &&& 0x07#8 else b) ∧
      (∀ a' : BitVec 6, a' ≠ a → byteAt t.window a'.toNat = byteAt s.window a'.toNat) ∧
      t = { s with win := t.win, cu := t.cu } ∧
      t.win = ({ s.win with intEnable := t.win.intEnable } : Window).movedTo f (a + 1#6) ∧
      t.cu.queue = s.cu.queue ∧ t.cu.completions = s.cu.completions ∧ t.cu.inFlight = s.cu.inFlight ∧
      t.cu.executing = s.cu.executing) ∧
  (∀ (s : State) (f : Frame) (a : BitVec 6) (b : Byte), s.frameAt f .write a → ¬ readWrite a →
    a ∉ [0x06#6, 0x07#6, 0x12#6, 0x15#6, 0x20#6, 0x27#6, 0x3F#6] →
    exec (.registerWrite b) s = .next { s with win := s.win.movedTo f (a + 1#6) }) ∧
  (∀ (s : State) (f : Frame) (b : Byte), s.frameAt f .write 0x3F#6 → b.getLsbD 0 = false →
    exec (.registerWrite b) s = .next { s with win := s.win.movedTo f 0x00#6 }) ∧
  (∀ (s : State) (f : Frame) (code : Byte), s.frameAt f .write 0x12#6 → s.cu.queue.length < 4 →
    ∃ t, exec (.registerWrite code) s = .next t ∧
      t = { s with
        win := s.win.movedTo f 0x13#6
        cu := { s.cu with queue := s.cu.queue ++
          [{ code := code, tag := s.cu.tag, key := s.cu.key, len := s.cu.len, arg0 := s.cu.arg0, arg1 := s.cu.arg1,
             arg2 := s.cu.arg2, arg3 := s.cu.arg3 }] } } ∧
      t.claimed = (s.claimed || decide (code = 0x20#8))) ∧
  (∀ (s : State) (f : Frame) (code : Byte), s.frameAt f .write 0x12#6 → 4 ≤ s.cu.queue.length →
    exec (.registerWrite code) s = .next { s with win := (s.win.raised .commandOverrun).movedTo f 0x13#6 })

/-- A byte at 06h or 07h clears each indication whose bit is 1 there and leaves the others. INT# is driven low just
while the part is out of reset and an indication and its enable are both set, or COMPLETION is enabled and the
completion queue is not empty. -/
def Obligations.FaultsAndInt : Prop :=
  (∀ (s : State) (f : Frame) (a : BitVec 6) (b : Byte), s.frameAt f .write a → (a = 0x06#6 ∨ a = 0x07#6) →
    ∃ t, exec (.faults b) s = .next t ∧
      t = { s with win := ({ s.win with faults := t.win.faults } : Window).movedTo f (a + 1#6) } ∧
      ∀ k, k < 16 → t.win.faults.getLsbD k =
        (s.win.faults.getLsbD k &&
          !(if a = 0x07#6 then decide (k < 8) && b.getLsbD k else decide (8 ≤ k) && b.getLsbD (k - 8)))) ∧
  (∀ s : State, s.intLow = true ↔
    s.heldInReset = false ∧
      ((∃ i : Indication, s.indicated i = true ∧ s.win.intEnable.getLsbD i.bit = true) ∨
        (s.win.intEnable.getLsbD 10 = true ∧ 0 < s.cu.completions.length)))

/-- A byte of any value at CQ-POP removes the head completion, so that CQ-COUNT falls by 1 and the head fields show the
next entry or 0; on an empty completion queue it changes nothing but the frame's address. -/
def Obligations.CqPop : Prop :=
  (∀ (s : State) (f : Frame) (b : Byte) (c : Completion) (rest : List Completion), s.frameAt f .write 0x15#6 →
    s.cu.completions = c :: rest →
    ∃ t, exec (.cqPop b) s = .next t ∧
      t = { s with win := s.win.movedTo f 0x16#6, cu := { s.cu with completions := rest } } ∧
      t.cu.completions.length + 1 = s.cu.completions.length ∧
      t.headFields = (match rest with
        | [] => (0#8, 0#8, 0#8, 0#32, 0#16, 0#16)
        | d :: _ => (d.tag, d.code, d.status.code, d.a, d.b, d.c))) ∧
  (∀ (s : State) (f : Frame) (b : Byte), s.frameAt f .write 0x15#6 → s.cu.completions = [] →
    exec (.cqPop b) s = .next { s with win := s.win.movedTo f 0x16#6 })

/-- The input buffer while no PUT stands in the command queue: a byte at DATA-IN joins its end below a fill of 256,
and a byte of any value at IN-CLEAR empties it. A byte at either while a PUT stands there, and one at DATA-IN at a
fill of 256, is dropped and PORT-OVERRUN raised. The frame stays at DATA-IN and moves on from IN-CLEAR. -/
def Obligations.InputBuffer : Prop :=
  (∀ (s : State) (f : Frame) (b : Byte), s.frameAt f .write 0x20#6 → s.win.input.length < 256 →
    (∀ e ∈ s.cu.queue, e.code ≠ 0x20#8) →
    exec (.dataIn b) s = .next
      { s with win := ({ s.win with input := s.win.input ++ [b] } : Window).movedTo f 0x20#6 }) ∧
  (∀ (s : State) (f : Frame) (b : Byte), s.frameAt f .write 0x20#6 →
    (256 ≤ s.win.input.length ∨ ∃ e ∈ s.cu.queue, e.code = 0x20#8) →
    exec (.dataIn b) s = .next { s with win := (s.win.raised .portOverrun).movedTo f 0x20#6 }) ∧
  (∀ (s : State) (f : Frame) (b : Byte), s.frameAt f .write 0x27#6 → (∀ e ∈ s.cu.queue, e.code ≠ 0x20#8) →
    exec (.inClear b) s = .next { s with win := ({ s.win with input := [] } : Window).movedTo f 0x28#6 }) ∧
  (∀ (s : State) (f : Frame) (b : Byte), s.frameAt f .write 0x27#6 → (∃ e ∈ s.cu.queue, e.code = 0x20#8) →
    exec (.inClear b) s = .next { s with win := (s.win.raised .portOverrun).movedTo f 0x28#6 })

/-- The byte of a read frame: at DATA-OUT it is the byte taken from the output buffer, OUT-POS advances past it, the
frame stays there and the next byte is taken; past OUT-LEN it is 00h and OUT-POS stands; at any other location it is the
snapshot's byte, and the frame moves on. The row stands for every byte of a read frame (log 20). -/
def Obligations.DataOut : Prop :=
  (∀ (s : State) (f : Frame) (o : OutByte), s.frameAt f .read 0x24#6 → f.out = some o →
    ∃ t, exec .dataOut s = .next t ∧
      t = { s with win := { s.win with outPos := t.win.outPos, port := t.win.port, sdo := some o.byte } } ∧
      t.win.outPos = s.win.outPos + (if o.advances then 1 else 0) ∧
      t.win.port = .frame { f with out := some (outTaken s.win.output t.win.outPos) }) ∧
  (∀ (s : State) (f : Frame) (a : BitVec 6), s.frameAt f .read a → a ≠ 0x24#6 → f.out = none →
    ∃ t, exec .dataOut s = .next t ∧
      t = { s with win := { s.win with port := t.win.port, sdo := some (byteAt f.snapshot a.toNat) } } ∧
      t.win.port = .frame { f with
        addr := a + 1#6
        out := if a + 1#6 = 0x24#6 then some (outTaken s.win.output s.win.outPos) else none })

/-! ### The engine's units and its look

A claim on what a step brings about is written over a continuation: `ends X` says that the rest of the step, from the
effects that have left `X`, is as claimed. -/

/-- One sector before another in activation order (R86, R123). -/
abbrev earlier (s : State) (v w : SectorIx) : Prop :=
  (s.sector v).activation < (s.sector w).activation ∨ ((s.sector v).activation = (s.sector w).activation ∧ v < w)

/-- The lowest of the sectors in a state (R85). -/
abbrev lowestIn (u : State) (st : SectorState) (v : SectorIx) : Prop :=
  (u.sector v).st = st ∧ ∀ j, j < v → (u.sector j).st ≠ st

/-- A sector a pass could take: SEALED, a dead line, no pending mark, room for its live lines and 18 (R86). -/
abbrev passable (s : State) (v : SectorIx) : Prop :=
  (s.sector v).st = .sealed ∧ 1 ≤ (s.sector v).dead ∧ (s.sector v).mark = false ∧
    s.heldLines + ((s.sector v).live + 18) ≤ s.freeLines

/-- The victim: of the passable sectors the one with the fewest live lines, of equals the oldest (R86). -/
abbrev victimIn (u : State) (v : SectorIx) : Prop :=
  passable u v ∧ ∀ j, j ≠ v → passable u j →
    (u.sector v).live < (u.sector j).live ∨ ((u.sector v).live = (u.sector j).live ∧ earlier u v j)

/-- R85 yields no unit: no sector is ERASE-PENDING, and the lowest RECLAIMING one has no room for its pass or, without
one RECLAIMING, no sector is passable. -/
abbrev unitless (u : State) : Prop :=
  (∀ j, (u.sector j).st ≠ .erasePending) ∧
    ((∃ v, lowestIn u .reclaiming v ∧ u.freeLines < u.heldLines + ((u.sector v).live + 18)) ∨
      ((∀ j, (u.sector j).st ≠ .reclaiming) ∧ ∀ v, ¬ passable u v))

/-- The engine as it starts a unit (R83, R87, R96, R97). -/
def unitBegun (g : Engine) (st : EngineState) (k : UnitKind) (v : SectorIx) (owner : Owner) : Engine :=
  { g with st := st, unit := some k, sector := some v, cursor := 2, attempts := 0, firstRef := none, copyCount := 0,
           copiedLines := 0, owner := owner }

/-- A record is offered to a stream in state `u` of a Log Writer `w` that accepts records. The idle Log Writer places it
when it fits in the ACTIVE sector and otherwise begins the opening of the candidate, for which it waits; while another
record or an opening is in progress it stays ready (R18, R19, R20). -/
def offersTo (x : Stream) (u : State) (w : LogWriter) (r : Record) (ends : State → Prop) : Prop :=
  let chosen := { w with flag := if x = .commit then .reclaim else .commit }
  let cur : InProgress := { stream := x, record := r, place := none, done := 0, failures := 0 }
  (∀ p, w.idle → w.point = some p → r.lines ≤ 256 - p.line → ends (u.recordPlaced chosen x r p 0)) ∧
  (∀ k, w.idle → (∀ p, w.point = some p → 256 - p.line < r.lines) → u.candidate = some k →
    ends (u.openingPlaced chosen (some cur) k false)) ∧
  (w.current ≠ none ∨ w.opening ≠ none →
    ends { u with lw :=
      { w with
        commitReady := if x = .commit then some r else w.commitReady
        reclaimReady := if x = .reclaim then some r else w.reclaimReady } })

/-- A record of the reclaim stream is offered; `refused` goes on where it does not fit and no sector is BLANK (R20). -/
def reclaimOffersTo (u : State) (w : LogWriter) (r : Record) (ends refused : State → Prop) : Prop :=
  offersTo .reclaim u w r ends ∧
  (w.idle → (∀ p, w.point = some p → 256 - p.line < r.lines) → (∀ j, (u.sector j).st ≠ .blank) →
    refused { u with lw := { w with flag := .commit } })

/-- The commit has ended with a status that is not OK: the marks are cleared, the reservation is released, the staging
list is kept, held after POWER-FAIL and after READ-ONLY outside MOUNTED, and the completion is posted (R77). -/
def commitOver (u : State) (st : Status) (f : CommitFlight) (tag : Byte) (inFlight : List (Byte × Byte)) : State :=
  { u with
    sectors := u.sectors.map (fun x => { x with mark := false })
    lw := { u.lw with commitRes := none }
    tm := { u.tm with
      commit := none
      held := u.tm.held || decide (st = .powerFail ∨ (st = .readOnly ∧ u.store.st ≠ .mounted)) }
    cu := u.cu.ended inFlight (flightDone 0x23#8 tag st f.first f.written.length f.txn) }

/-- The settings write has ended with a status that is not OK (R82, R168). -/
def settingsOver (u : State) (st : Status) (f : SettingsFlight) (tag : Byte) (inFlight : List (Byte × Byte)) : State :=
  { u with
    lw := { u.lw with commitRes := none }
    tm := { u.tm with settings := none }
    cu := u.cu.ended inFlight (flightDone 0x31#8 tag st f.seq 0 0) }

/-- The commit of `u`, or without one the settings write, ends with a status (R77, R82). -/
def writeFailsTo (u : State) (st : Status) (ends : State → Prop) : Prop :=
  (∀ (f : CommitFlight) before tag after, u.tm.commit = some f →
    u.cu.flies before 0x23#8 tag after → ends (commitOver u st f tag (before ++ after))) ∧
  (∀ (f : SettingsFlight) before tag after, u.tm.commit = none → u.tm.settings = some f →
    u.cu.flies before 0x31#8 tag after → ends (settingsOver u st f tag (before ++ after)))

/-- The store has left MOUNTED for READ-ONLY: the directory is valid and a staging list that is not empty is held (R10,
R69, R119). -/
def readOnlyFor (u : State) (cause : Cause) : State :=
  { u with
    store := { u.store with st := .readOnly, cause := cause, dirValid := true }
    tm := { u.tm with held := u.tm.held || decide (u.tm.staging ≠ []) } }

/-- The store has left MOUNTED for READ-ONLY over a refused block of sequence numbers (R10). -/
abbrev sequenceOver (u : State) : State := readOnlyFor u .sequence

/-- No program or erase waits and no record is ready, so that nothing of the kind is refused as the store leaves MOUNTED
(R112, R119). -/
abbrev refusesNothing (u : State) : Prop :=
  u.arr.waitingWrite .l = false ∧ u.arr.waitingWrite .c = false ∧ u.arr.waitingWrite .m = false ∧
    u.lw.commitReady = none ∧ u.lw.reclaimReady = none

/-- Not both a commit and a settings write are in flight (R70, R82). -/
abbrev oneWrite (u : State) : Prop :=
  u.tm.commit = none ∨ u.tm.settings = none

/-- The store leaves MOUNTED for READ-ONLY, and the commit or settings write that waits for space ends READ-ONLY (R72,
R80, R119). -/
def leavesTo (u : State) (cause : Cause) (ends : State → Prop) : Prop :=
  u.store.st = .mounted → refusesNothing u →
    (u.spaceWaiter = false → ends (readOnlyFor u cause)) ∧
    (u.spaceWaiter = true → oneWrite u → writeFailsTo (readOnlyFor u cause) .readOnly ends)

/-- Lines a unit has freed: 254 less those copied when its sector is BLANK, none otherwise (R98). -/
def freedBy (u : State) (v : SectorIx) : Nat :=
  if (u.sector v).st = .blank then 254 - u.eng.copiedLines else 0

/-- The engine's unit has ended, before a RECLAIM command posts it: the reservation is released and the result recorded.
STALLED is cleared when the sector is BLANK, and set, RECLAIM-STALLED being raised when it was clear, when a copy or a
RECLAIM-END found no BLANK sector (R98, R99). -/
def unitOver (u : State) (v : SectorIx) (st : Status) (noBlank : Bool) : State :=
  let blank := decide ((u.sector v).st = .blank)
  let result : UnitResult := { status := st, sector := v, copyCount := u.eng.copyCount, linesFreed := freedBy u v }
  { u with
    lw := { u.lw with reclaimRes := none }
    win := if blank || !noBlank || u.eng.stalled then u.win else u.win.raised .reclaimStalled
    eng := { Engine.reset with
      cause := u.eng.cause, stalled := !blank && (u.eng.stalled || noBlank), lastResult := some result } }

/-- The engine's unit over sector `v` ends, and a RECLAIM command that owns it posts the result (R98). -/
def unitEndsTo (u : State) (v : SectorIx) (st : Status) (noBlank : Bool) (ends : State → Prop) : Prop :=
  u.eng.sector = some v →
    (u.eng.owner = .automatic → ends (unitOver u v st noBlank)) ∧
    (∀ before tag after o, u.eng.owner = .command o → u.cu.flies before 0x41#8 tag after →
      ends { unitOver u v st noBlank with
        cu := u.cu.ended (before ++ after) (flightDone 0x41#8 tag st (freedBy u v) v.val u.eng.copyCount) })

/-- A unit over sector `v`, begun in `u`, meets a refused sequence number: the store is READ-ONLY, and the unit ends
READ-ONLY (R10, R98, R100). -/
def haltsTo (u : State) (v : SectorIx) (ends : State → Prop) : Prop :=
  leavesTo u .sequence (fun y => unitEndsTo y v .readOnly false ends)

/-- The sector of a unit has become RETIRED, with a RETIRE location or without (R41). -/
def retiredIn (u : State) (v : SectorIx) (loc : Option Loc) : State :=
  let x := { u.sector v with st := .retired, live := 0, dead := 0, retireLoc := loc }
  { u with sectors := u.sectors.set v.val x v.isLt, win := u.win.raised .sectorRetired }

/-- A retirement of sector `v` has left `u`, and its unit ends with a status; with fewer than 3 usable sectors left the
store leaves MOUNTED for READ-ONLY first (R42, R95). -/
def retirementEndsTo (u : State) (v : SectorIx) (st : Status) (ends : State → Prop) : Prop :=
  (u.store.st ≠ .mounted ∨ countIn u.sectors .retired ≤ 29 → unitEndsTo u v st false ends) ∧
  (u.store.st = .mounted → 29 < countIn u.sectors .retired →
    leavesTo u .retirement (fun y => unitEndsTo y v st false ends))

/-- The status of a unit that ends with a retirement, by its cause, POWER-FAIL in POWER-HOLD (R95, R100; log 24). -/
def retireStatus (u : State) : Status :=
  if u.store.st = .powerHold then .powerFail else if u.eng.cause = .endurance then .ok else .arrayFault

/-- A record of a stream has left the Log Writer, refused to its requester with a status. Of the commit stream: the
commit or the settings write ends with it, and `ends` goes on. Of the reclaim stream: the unit ends with it, STALLED
being set for a copy or a RECLAIM-END refused NO-SPACE, and the sector of a RETIRE is RETIRED without a location;
`posted` goes on from the unit's end (R26, R77, R82, R87, R90, R92, R95, R99). -/
def refusesTo (x : Stream) (u : State) (st : Status) (ends posted : State → Prop) : Prop :=
  (x = .commit → writeFailsTo u st ends) ∧
  (∀ v, x = .reclaim → u.eng.sector = some v →
    (u.eng.st = .beginning → unitEndsTo u v st false posted) ∧
    (u.eng.st = .copying ∨ u.eng.st = .ending → unitEndsTo u v st (decide (st = .noSpace)) posted) ∧
    (u.eng.st = .retiring →
      retirementEndsTo (retiredIn u v none) v (if st = .powerFail ∨ st = .readOnly then st else retireStatus u) posted))

/-- The engine of `u` enters RETIRING for sector `v`, which is ERASE-PENDING: a unit without a reservation takes one
of 18 lines where there is room, one sequence number is taken and RETIRE is offered. With the number refused the
sector is RETIRED without a location, SECTOR-RETIRED is raised, and the unit meets the refusal (R41, R95). -/
def retiresTo (u : State) (v : SectorIx) (cause : RetireCause) (ends refused halted : State → Prop) : Prop :=
  let res := if u.lw.reclaimRes = none ∧ u.heldLines + 18 ≤ u.freeLines then some 18 else u.lw.reclaimRes
  let u1 := { u with eng := { u.eng with st := .retiring, cause := cause } }
  (u.lw.seqCtr + 1 ≤ 0xFFFFFFFF →
    reclaimOffersTo u1 { u.lw with reclaimRes := res, seqCtr := u.lw.seqCtr + 1 } (retireRecord v u.lw.seqCtr) ends
      refused) ∧
  (0xFFFFFFFF < u.lw.seqCtr + 1 → haltsTo (retiredIn u1 v none) v halted)

/-- The unit that R85 takes in state `u` is started for an owner. The lowest ERASE-PENDING sector is erased, or
retired at the endurance limit (R97); else the walk of the lowest RECLAIMING one begins anew, with room for its pass
(R96); else a RECLAIM-BEGIN that names the victim, with the next sequence number, is offered, and with the number
refused the unit ends with the victim SEALED (R87). -/
def startsTo (u : State) (o : Owner) (ends refused halted : State → Prop) : Prop :=
  u.writable →
  (∀ v, lowestIn u .erasePending v →
    let eng := unitBegun u.eng .erasing .pendingErase v o
    let x := { u.sector v with st := .erasing, activation := 0, openingSeq := 0, live := 0, dead := 0 }
    ((u.sector v).eraseCount < 100000 →
      ends { u with sectors := u.sectors.set v.val x v.isLt, eng := eng, arr := u.arr.put .c (.erase v) }) ∧
    (100000 ≤ (u.sector v).eraseCount → retiresTo { u with eng := eng } v .endurance ends refused halted)) ∧
  (∀ v, (∀ j, (u.sector j).st ≠ .erasePending) → lowestIn u .reclaiming v → u.lw.reclaimRes = none →
    u.heldLines + ((u.sector v).live + 18) ≤ u.freeLines →
    ends
      { u with
        lw := { u.lw with reclaimRes := some ((u.sector v).live + 18) }
        eng := unitBegun u.eng .copying .resumedPass v o
        arr := u.arr.put .c (.readRecord v 2 .header) }) ∧
  (∀ v, (∀ j, (u.sector j).st ≠ .erasePending ∧ (u.sector j).st ≠ .reclaiming) → victimIn u v →
    u.lw.reclaimRes = none →
    let w := { u.lw with reclaimRes := some ((u.sector v).live + 18) }
    let begun := { u with eng := unitBegun u.eng .beginning .pass v o }
    (u.lw.seqCtr + 1 ≤ 0xFFFFFFFF →
      reclaimOffersTo begun { w with seqCtr := u.lw.seqCtr + 1 } (reclaimBeginRecord v u.lw.seqCtr) ends refused) ∧
    (0xFFFFFFFF < u.lw.seqCtr + 1 → haltsTo { begun with lw := w } v halted))

/-- The engine, IDLE under AUTO-RECLAIM 1 in `u`, of which `g` is what it finds, yields no unit. The automatic and the
waiting reason set STALLED, RECLAIM-STALLED being raised when it was clear, and whoever waits ends NO-SPACE (R72, R99).
-/
def stallsTo (u g : State) (ends : State → Prop) : Prop :=
  let short := u.blankCount < u.settings.threshold
  let stalled := { g with
    win := if u.eng.stalled then u.win else u.win.raised .reclaimStalled, eng := { u.eng with stalled := true } }
  (unitless u → short → u.spaceWaiter = false → ends stalled) ∧
  (unitless u → u.spaceWaiter = true → oneWrite u → writeFailsTo stalled .noSpace ends) ∧
  (unitless u → ¬ short → u.spaceWaiter = false → ends g)

/-- The look of the IDLE engine under AUTO-RECLAIM 1 in `u`, of which `g` is what it finds. A reason (BLANK sectors
short of RECLAIM-THRESHOLD, a commit or a settings write that waits, a sector ERASE-PENDING or RECLAIMING) starts the
unit of R85 for the engine itself, when there is one (R84, R85, R99). -/
def looksTo (u g : State) (ends refused : State → Prop) : Prop :=
  u.store.st = .mounted → u.eng.st = .idle → u.settings.autoReclaim = 1 →
  (u.blankCount < u.settings.threshold ∨ u.spaceWaiter = true ∨
      (∃ v, (u.sector v).st = .erasePending ∨ (u.sector v).st = .reclaiming) →
    startsTo g .automatic ends refused ends) ∧
  stallsTo u g ends

/-- The RETIRE record that the engine's own unit offers as it starts is refused NO-SPACE: the unit ends, and the engine
starts no other. -/
def refusedAtOnce (ends : State → Prop) (u : State) : Prop :=
  refusesTo .reclaim u .noSpace ends (fun y => y.engineRests → y.spaceWaiter = false → ends y)

/-- The look of the engine at the end of a step whose effects have left `u`, of which `g` is what the engine finds. -/
def looksFrom (c : Instr) (s u g : State) (stored : Nat → Prop) : Prop :=
  looksTo u g (fun x => endsIn c s x stored) (refusedAtOnce (fun x => endsIn c s x stored))

/-- A look that finds granted what the step has placed before it (R107; log 10). -/
abbrev looksIn (c : Instr) (s u : State) (stored : Nat → Prop) : Prop :=
  looksFrom c s u u.grant stored

/-- The end of a step whose effects have left `u`: the engine looks for work, and a grant closes the step (R84, R107).
-/
def concludesIn (c : Instr) (s u : State) (stored : Nat → Prop) : Prop :=
  (u.engineRests → endsIn c s u stored) ∧ looksIn c s u stored

/-! ### Whoever waits for space -/

/-- The numbers a commit's block takes: 1 for one operation, one more than the operations for several (R73). -/
def blockOf (l : List Staged) : Nat :=
  if l.length = 1 then 1 else l.length + 1

/-- The transaction counter after a number has been taken from it (R12). -/
def txnAfter (t : Nat) : Nat :=
  if t = 65535 then 1 else t + 1

/-- The commit or the settings write that waits for space in `g` repeats its reservation request. Granted, it takes its
numbers, holds its lines, and offers its first record; with the numbers refused the store is READ-ONLY and it ends
READ-ONLY. Not granted, it ends NO-SPACE under AUTO-RECLAIM 0, and under 1 `waits` goes on (R71, R72, R73, R82). -/
def requestsTo (g : State) (ends waits : State → Prop) : Prop :=
  g.writable → g.lw.commitRes = none →
  let answered := fun (amount : Nat) (granted : Prop) =>
    (g.heldLines + amount + 272 ≤ g.freeLines → granted) ∧
    (g.freeLines < g.heldLines + amount + 272 → g.settings.autoReclaim = 1 → waits g) ∧
    (g.freeLines < g.heldLines + amount + 272 → g.settings.autoReclaim = 0 → writeFailsTo g .noSpace ends)
  (∀ (f : CommitFlight) (op : Staged) (ops : List Staged), g.tm.commit = some f → f.phase = .waitingSpace →
    g.tm.settings = none → g.tm.staging = op :: ops → f.n = ops.length + 1 → f.nextIx = 0 → f.txn = 0 →
    let block := blockOf (op :: ops)
    let txn := if ops = [] then 0 else g.lw.txnCtr
    let w := { g.lw with
      commitRes := some f.amount, seqCtr := g.lw.seqCtr + block
      txnCtr := if ops = [] then g.lw.txnCtr else txnAfter g.lw.txnCtr }
    let f1 := { f with phase := .writing, first := g.lw.seqCtr, txn := txn, nextIx := 1 }
    answered f.amount
      ((g.lw.seqCtr + block ≤ 0xFFFFFFFF →
        offersTo .commit { g with tm := { g.tm with commit := some f1 } } w
          (op.record (decide (ops = [])) txn g.lw.seqCtr) ends) ∧
      (0xFFFFFFFF < g.lw.seqCtr + block → leavesTo g .sequence ends))) ∧
  (∀ f : SettingsFlight, g.tm.commit = none → g.tm.settings = some f → f.phase = .waitingSpace →
    let w := { g.lw with commitRes := some 37, seqCtr := g.lw.seqCtr + 1 }
    let f1 := { f with phase := .writing, seq := g.lw.seqCtr }
    answered 37
      ((g.lw.seqCtr + 1 ≤ 0xFFFFFFFF →
        offersTo .commit { g with tm := { g.tm with settings := some f1 } } w (settingsRecord f.payload g.lw.seqCtr)
          ends) ∧
      (0xFFFFFFFF < g.lw.seqCtr + 1 → leavesTo g .sequence ends)))

/-- The Log Writer accepts no more: PFAIL# has stopped it in POWER-HOLD, or the store is READ-ONLY; and the status with
which it refuses (R17, R26). -/
abbrev halted (s : State) (st : Status) : Prop :=
  (s.store.st = .powerHold ∧ s.lw.stopped = true ∧ st = .powerFail) ∨
    (s.store.st = .readOnly ∧ s.lw.stopped = false ∧ st = .readOnly)

/-- A unit has ended in `u`, with the engine IDLE: the engine looks for work, and whoever waits for space repeats its
request, in the one or the other order, which R98 leaves free (log 9, of which the count of draws is the model's trace).
With the request first, the engine's look counts its reservation; with the search first, the request counts the new
unit's (R71, R84, R98). -/
def unitEndIn (c : Instr) (s u : State) (stored : Nat → Prop) : Prop :=
  let ends := fun x => concludesIn c s x stored
  let refused := refusedAtOnce (fun x => endsIn c s x stored)
  (u.store.st ≠ .mounted → endsIn c s u stored) ∧
  (u.store.st = .mounted → u.spaceWaiter = false → concludesIn c s u stored) ∧
  (u.store.st = .mounted → u.spaceWaiter = true →
    let w := { u with freeCount := u.freeCount + 1 }
    if Config.searchFirst u.freeCount then
      (w.settings.autoReclaim = 1 → stallsTo w w.grant ends ∧
        startsTo w.grant .automatic (fun x => requestsTo x.grant ends ends) refused ends) ∧
      (w.settings.autoReclaim ≠ 1 → requestsTo w.grant ends ends)
    else requestsTo w.grant ends (fun x => looksTo x x ends refused))

/-- A record is refused to its requester in a step whose effects have left `u` (R77, R82, R98). -/
def refusesIn (c : Instr) (s : State) (x : Stream) (u : State) (st : Status) (stored : Nat → Prop) : Prop :=
  refusesTo x u st (fun y => concludesIn c s y stored) (fun y => unitEndIn c s y stored)

/-- A unit ends in a step whose effects have left `u` (R98). -/
def unitEndsIn (c : Instr) (s u : State) (v : SectorIx) (st : Status) (stored : Nat → Prop) : Prop :=
  unitEndsTo u v st false (fun y => unitEndIn c s y stored)

/-- A record is offered to the reclaim stream in a step of command `c` (R18, R19, R20). -/
def offersIn (c : Instr) (s u : State) (w : LogWriter) (r : Record) (stored : Nat → Prop) : Prop :=
  reclaimOffersTo u w r (fun x => endsIn c s x stored) (fun x => refusesIn c s .reclaim x .noSpace stored)

/-- A unit meets a refused sequence number in a step of command `c` (R10, R100). -/
def haltsIn (c : Instr) (s u : State) (v : SectorIx) (stored : Nat → Prop) : Prop :=
  haltsTo u v (fun x => endsIn c s x stored)

/-- The engine enters RETIRING in a step of command `c` (R41, R95). -/
def retiresIn (c : Instr) (s u : State) (v : SectorIx) (cause : RetireCause) (stored : Nat → Prop) : Prop :=
  retiresTo u v cause (fun x => endsIn c s x stored) (fun x => refusesIn c s .reclaim x .noSpace stored)
    (fun x => endsIn c s x stored)

/-- The unit of R85 is started for an owner in a step of command `c` (R87, R96, R97). -/
def startsIn (c : Instr) (s u : State) (o : Owner) (stored : Nat → Prop) : Prop :=
  startsTo u o (fun x => endsIn c s x stored) (fun x => refusesIn c s .reclaim x .noSpace stored)
    (fun x => endsIn c s x stored)

/-! ### Foreground commands -/

/-- GET and NEXT are executed: MOUNTED, READ-ONLY, or POWER-HOLD with the directory valid (R161). -/
abbrev readsAdmitted (s : State) : Prop :=
  s.store.st = .mounted ∨ s.store.st = .readOnly ∨ (s.store.st = .powerHold ∧ s.store.dirValid = true)

/-- A key that GET accepts: a user key or the settings key (R45). -/
abbrev getAccepts (k : Key) : Prop :=
  (0x0001#16 ≤ k ∧ k ≤ 0xFEFF#16) ∨ k = 0xFF01#16

/-- A user key (R45). -/
abbrev userKey (k : Key) : Prop :=
  0x0001#16 ≤ k ∧ k ≤ 0xFEFF#16

/-- The snapshot a GET takes of its key's entry (R50). -/
def snapshotOf (e : CmdEntry) (d : DirEntry) : GetFlight :=
  { tag := e.tag, key := e.key, loc := d.loc, lines := d.lines, length := d.length, seq := d.seq }

/-- The completion of an executed GET (R51, R52). -/
def getDone (g : GetFlight) (st : Status) (a b : Nat) (c : Key) : Completion :=
  { tag := g.tag, code := 0x10#8, status := st, a := BitVec.ofNat 32 a, b := BitVec.ofNat 16 b, c := c }

/-- GET of a key that passes its checks takes a snapshot of the entry and places the READ of its record in slot H, which
an idle array grants at once. The checks, in their order, otherwise answer BAD-KEY, PROTECTED with GUARD-REFUSAL, or
NOT-FOUND, with A, B and C at 0 and the output buffer as it was. -/
def Obligations.GetTaken : Prop :=
  ∀ (s : State) (e : CmdEntry) (rest : List CmdEntry), s.heads e rest → e.code = 0x10#8 → readsAdmitted s →
    (∀ d, getAccepts e.key → s.guardMode e.key ≠ .hidden → s.entry e.key = some d → d.present = true →
      endsIn .get s { s with
        cu := { s.cu with queue := rest, executing := some (snapshotOf e d) }
        arr := s.arr.put .h (.readRecord d.loc.sector d.loc.line (.lines d.lines)) } nowhere ∧
      (s.arr.busy = none → s.arr.erase = none → s.arr.l = none → s.arr.c = none →
        ∃ t, exec .get s = .next t ∧ t.flash = s.flash ∧ t.arr.h =
          some { op := .readRecord d.loc.sector d.loc.line (.lines d.lines), inProgress := true })) ∧
    (¬ getAccepts e.key → exec .get s = .next { s with cu := s.cu.answered rest (e.done .badKey 0 0 0) }) ∧
    (getAccepts e.key → s.guardMode e.key = .hidden → exec .get s = .next
      { s with cu := s.cu.answered rest (e.done .protected_ 0 0 0), win := s.win.raised .guardRefusal }) ∧
    (getAccepts e.key → s.guardMode e.key ≠ .hidden →
      (s.entry e.key = none ∨ ∃ d, s.entry e.key = some d ∧ d.present = false) →
      exec .get s = .next { s with cu := s.cu.answered rest (e.done .notFound 0 0 0) })

/-- The commands that are takes of the head entry, with the code each takes (R159). -/
def takes : List (Instr × Byte) :=
  [(.get, 0x10#8), (.next, 0x11#8), (.put, 0x20#8), (.delete, 0x21#8), (.discard, 0x22#8), (.commit, 0x23#8),
   (.setting, 0x30#8), (.saveSettings, 0x31#8), (.guardSet, 0x38#8), (.guardFix, 0x39#8), (.sectorQuery, 0x40#8),
   (.reclaim, 0x41#8), (.mount, 0x50#8), (.format, 0x51#8)]

/-- The state after a READ has ended: nothing but the drawn free values and the slot has changed. -/
def readOver (s : State) (n : Nat) (x : SlotId) : State :=
  { s with arr := s.arr.ended x, freeCount := n }

/-- The window once a GET has loaded the output buffer; a DATA-OUT byte in transfer no longer advances OUT-POS (R52,
R177). -/
def windowLoaded (w : Window) (bytes : List Byte) : Window :=
  { w with output := bytes, outPos := 0, port := w.port.afterLoad }

/-- The READ of a GET ends. When the bytes read verify and are a VALUE of the key with the snapshot's sequence, the
output buffer is the payload, OUT-POS is 0 and the completion is OK with A the sequence, B the length and C the key;
otherwise the completion is ARRAY-FAULT, READ-FAULT is raised and the output buffer stands. Nothing else has changed
when, in the same happening, the head of the command queue is taken: as its own command takes it, when a completion
place is left for it; with an empty queue, or with no place left, nothing is taken. -/
def Obligations.GetReadEnd : Prop :=
  ∀ (s : State) (r : ReadOutcome) (g : GetFlight) (sec : SectorIx) (p : Nat) (len : ReadLen) (rr : ReadResult) (n : Nat)
    (win : Window) (done : Completion) (u : State),
    s.cu.executing = some g → s.arr.busy = some .h →
    s.arr.h = some { op := .readRecord sec p len, inProgress := true } → (s.readRecord sec p len r).1 = rr →
    (s.readRecord sec p len r).2.freeCount = n →
    ((∃ rec, rr.checkOk = true ∧ parseRecord rr.bytes = some rec ∧ rec.kind = .value ∧ rec.key = g.key ∧
        rec.seq = g.seq ∧ win = windowLoaded s.win rec.payload ∧ done = getDone g .ok rec.seq rec.length rec.key) ∨
      ((rr.checkOk = false ∨ ∀ rec, parseRecord rr.bytes = some rec →
          rec.kind ≠ .value ∨ rec.key ≠ g.key ∨ rec.seq ≠ g.seq) ∧
        win = s.win.raised .readFault ∧ done = getDone g .arrayFault 0 0 0#16)) →
    u = { readOver s n .h with
      win := win, cu := { s.cu with executing := none, completions := s.cu.completions ++ [done] } } →
    (s.cu.queue = [] ∨ 8 ≤ s.cu.completions.length + 1 + s.cu.inFlight.length →
      endsIn (.getReadEnd r) s u nowhere) ∧
    (∀ e rest, s.cu.queue = e :: rest →
      (∀ c, (c, e.code) ∈ takes → exec (.getReadEnd r) s = grantAfter (exec c u)) ∧
      ((∀ c, (c, e.code) ∉ takes) → exec (.getReadEnd r) s = grantAfter (exec .unknownCommand u)))

/-- What NEXT looks for: a user key above the start that is PRESENT and not HIDDEN (R53). -/
abbrev nextQualifies (s : State) (k : Key) (d : DirEntry) : Prop :=
  k < d.key ∧ userKey d.key ∧ d.present = true ∧ s.guardMode d.key ≠ .hidden

/-- NEXT answers, of the entries that qualify, the one with the smallest key, or NOT-FOUND when there is none; nothing
but the two queues changes. -/
def Obligations.Next : Prop :=
  ∀ (s : State) (e : CmdEntry) (rest : List CmdEntry), s.heads e rest → e.code = 0x11#8 → readsAdmitted s →
    dirSorted s.dir = true →
    (∀ d ∈ s.dir, nextQualifies s e.key d → (∀ x ∈ s.dir, nextQualifies s e.key x → d.key ≤ x.key) →
      exec .next s = .next { s with cu := s.cu.answered rest (e.done .ok d.seq d.length d.key.toNat) }) ∧
    ((∀ x ∈ s.dir, ¬ nextQualifies s e.key x) →
      exec .next s = .next { s with cu := s.cu.answered rest (e.done .notFound 0 0 0) }) ∧
    ((∃ d ∈ s.dir, nextQualifies s e.key d) →
      ∃ d ∈ s.dir, nextQualifies s e.key d ∧ ∀ x ∈ s.dir, nextQualifies s e.key x → d.key ≤ x.key)

/-- PUT and DELETE are executed as R65 and R67 say: the head is taken in MOUNTED. -/
abbrev stagingTaken (s : State) (e : CmdEntry) (rest : List CmdEntry) (code : Byte) : Prop :=
  s.heads e rest ∧ e.code = code ∧ s.store.st = .mounted

/-- The state after a PUT, DELETE or DISCARD has left the staging list `l` (R66, R67). -/
def staged (s : State) (l : List Staged) : State :=
  { s with tm := { s.tm with staging := l } }

/-- The completion of a PUT or DELETE: A = 0, B the staged operations, C the staged bytes (R65–R67). -/
def stagedDone (e : CmdEntry) (st : Status) (l : List Staged) : Completion :=
  e.done st 0 l.length (stagedBytesOf l)

/-- A PUT that passes its checks stages the first L bytes of the input buffer, at the tail for a new key or in the
position its key already held, and empties the buffer. The refusals of PUT in MOUNTED, in the order of its checks, each
leave the list and the input buffer as they were and answer with the staged count and bytes; PROTECTED raises
GUARD-REFUSAL. -/
def Obligations.PutStagesOrRefuses : Prop :=
  (∀ (s : State) (e : CmdEntry) (rest : List CmdEntry), stagingTaken s e rest 0x20#8 → s.tm.commit = none →
    userKey e.key → e.len.toNat ≤ 242 → e.len.toNat ≤ s.win.input.length → s.guardMode e.key = .none →
    (∀ l, (∀ o ∈ s.tm.staging, o.key ≠ e.key) → s.tm.staging.length < 16 →
      stagedBytesOf s.tm.staging + e.len.toNat ≤ 2048 →
      (s.entry e.key = none → s.dir.length + s.newStaged + 1 ≤ 1024) →
      l = s.tm.staging ++ [{ key := e.key, value := some (s.win.input.take e.len.toNat) }] →
      exec .put s = .next { staged s l with
        cu := s.cu.answered rest (stagedDone e .ok l), win := { s.win with input := [] } }) ∧
    (∀ l l1 l2 o, s.tm.staging = l1 ++ o :: l2 → o.key = e.key → (∀ x ∈ l1, x.key ≠ e.key) →
      stagedBytesOf s.tm.staging - o.bytes + e.len.toNat ≤ 2048 →
      l = l1 ++ { key := e.key, value := some (s.win.input.take e.len.toNat) } :: l2 →
      exec .put s = .next { staged s l with
        cu := s.cu.answered rest (stagedDone e .ok l), win := { s.win with input := [] } })) ∧
  (∀ (s : State) (e : CmdEntry) (rest : List CmdEntry), stagingTaken s e rest 0x20#8 →
    let refused := fun st : Status => { s with cu := s.cu.answered rest (stagedDone e st s.tm.staging) }
    (s.tm.commit ≠ none → exec .put s = .next (refused .busy)) ∧
    (s.tm.commit = none → ¬ userKey e.key → exec .put s = .next (refused .badKey)) ∧
    (s.tm.commit = none → userKey e.key → (242 < e.len.toNat ∨ s.win.input.length < e.len.toNat) →
      exec .put s = .next (refused .badLength)) ∧
    (s.tm.commit = none → userKey e.key → e.len.toNat ≤ 242 → e.len.toNat ≤ s.win.input.length →
      (s.guardMode e.key ≠ .none → exec .put s = .next { refused .protected_ with win := s.win.raised .guardRefusal }) ∧
      (s.guardMode e.key = .none →
        (∀ l1 l2 o, s.tm.staging = l1 ++ o :: l2 → o.key = e.key → (∀ x ∈ l1, x.key ≠ e.key) →
          2048 < stagedBytesOf s.tm.staging - o.bytes + e.len.toNat → exec .put s = .next (refused .stagingFull)) ∧
        ((∀ o ∈ s.tm.staging, o.key ≠ e.key) →
          (16 ≤ s.tm.staging.length ∨ 2048 < stagedBytesOf s.tm.staging + e.len.toNat) →
          exec .put s = .next (refused .stagingFull)) ∧
        ((∀ o ∈ s.tm.staging, o.key ≠ e.key) → s.tm.staging.length < 16 →
          stagedBytesOf s.tm.staging + e.len.toNat ≤ 2048 → s.entry e.key = none →
          1024 < s.dir.length + s.newStaged + 1 → exec .put s = .next (refused .noDirectorySpace)))))

/-- DELETE, once its checks pass, by how its key stands in the list and in the directory: the five rows of R67; and its
refusals BUSY, BAD-KEY and PROTECTED in the order of the checks. -/
def Obligations.Delete : Prop :=
  ∀ (s : State) (e : CmdEntry) (rest : List CmdEntry), stagingTaken s e rest 0x21#8 →
    let after := fun (st : Status) (l : List Staged) =>
      { staged s l with cu := s.cu.answered rest (stagedDone e st l) }
    (s.tm.commit ≠ none → exec .delete s = .next (after .busy s.tm.staging)) ∧
    (s.tm.commit = none → ¬ userKey e.key → exec .delete s = .next (after .badKey s.tm.staging)) ∧
    (s.tm.commit = none → userKey e.key → s.guardMode e.key ≠ .none → exec .delete s = .next
      { after .protected_ s.tm.staging with win := s.win.raised .guardRefusal }) ∧
    (s.tm.commit = none → userKey e.key → s.guardMode e.key = .none →
      (∀ l1 l2 v, s.tm.staging = l1 ++ { key := e.key, value := some v } :: l2 → (∀ x ∈ l1 ++ l2, x.key ≠ e.key) →
        (s.isPresent e.key = false → exec .delete s = .next (after .ok (l1 ++ l2))) ∧
        (s.isPresent e.key = true →
          exec .delete s = .next (after .ok (l1 ++ { key := e.key, value := none } :: l2)))) ∧
      (∀ l1 l2, s.tm.staging = l1 ++ { key := e.key, value := none } :: l2 → (∀ x ∈ l1 ++ l2, x.key ≠ e.key) →
        exec .delete s = .next (after .ok s.tm.staging)) ∧
      ((∀ o ∈ s.tm.staging, o.key ≠ e.key) →
        (s.isPresent e.key = true → s.tm.staging.length < 16 →
          exec .delete s = .next (after .ok (s.tm.staging ++ [{ key := e.key, value := none }]))) ∧
        (s.isPresent e.key = true → 16 ≤ s.tm.staging.length →
          exec .delete s = .next (after .stagingFull s.tm.staging)) ∧
        (s.isPresent e.key = false → exec .delete s = .next (after .notFound s.tm.staging))))

/-- DISCARD in IDLE or OPEN empties the list and answers OK with the number of operations discarded; in COMMITTING it is
refused BUSY; outside MOUNTED the store state answers. Nothing else changes: no directory entry, no byte of the array,
neither the input buffer nor its claim's PUTs, and not staging held. -/
def Obligations.Discard : Prop :=
  ∀ (s : State) (e : CmdEntry) (rest : List CmdEntry), s.heads e rest → e.code = 0x22#8 →
    let refused := fun st : Status => { s with cu := s.cu.answered rest (e.done st 0 0 0) }
    (s.store.st = .mounted → s.tm.commit = none → exec .discard s = .next
      { s with tm := { s.tm with staging := [] }, cu := s.cu.answered rest (e.done .ok s.tm.staging.length 0 0) }) ∧
    (s.store.st = .mounted → s.tm.commit ≠ none → exec .discard s = .next (refused .busy)) ∧
    (s.store.st = .readOnly → exec .discard s = .next (refused .readOnly)) ∧
    (s.store.st = .unmounted → exec .discard s = .next (refused .notMounted)) ∧
    (s.store.st = .powerHold → exec .discard s = .next (refused .powerFail)) ∧
    (s.store.st = .formatting → exec .discard s = .next (refused .busy))

/-- The working settings with the setting of an id changed (R165). -/
def settingWritten (w : Settings) (id v : Nat) : Settings :=
  if id = 1 then { w with threshold := v }
  else if id = 2 then { w with autoReclaim := v }
  else { w with suspendLimit := v }

/-- The value of the setting of an id (R165). -/
def settingValue (w : Settings) (id : Nat) : Nat :=
  if id = 1 then w.threshold else if id = 2 then w.autoReclaim else w.suspendLimit

/-- An id of R165 with a value inside its range. -/
abbrev settingFits (id v : Nat) : Prop :=
  (id = 1 ∧ 2 ≤ v ∧ v ≤ 8) ∨ (id = 2 ∧ v ≤ 1) ∨ (id = 3 ∧ v ≤ 24)

/-- SETTING outside FORMATTING gives the setting of a known id a value inside its range, and answers OK with the id,
the value after and the value before. What a change of AUTO-RECLAIM or of RECLAIM-THRESHOLD sets going comes before
that answer, and the look of the engine after SUSPEND-LIMIT behind it: an IDLE engine with a reason starts the unit of
R85 or sets STALLED, and whoever waits for space then ends NO-SPACE. AUTO-RECLAIM from 1 to 0 has the commit or the
settings write that waits repeat its request: granted, it goes on with its first record; not granted, it ends NO-SPACE,
its completion posted ahead of SETTING's. A bad id or value is refused BAD-ARGUMENT and changes nothing. -/
def Obligations.Setting : Prop :=
  ∀ (s : State) (e : CmdEntry) (rest : List CmdEntry) (id v : Nat), s.heads e rest → e.code = 0x30#8 →
    s.store.st ≠ .formatting → e.arg0.toNat = id → e.arg1.toNat = v →
    let done := e.done .ok id v (settingValue s.settings id)
    let posted := fun x : State => { x with cu := { x.cu with completions := x.cu.completions ++ [done] } }
    let u := { s with settings := settingWritten s.settings id v, cu := { s.cu with queue := rest } }
    let ends := fun x => concludesIn .setting s (posted x) nowhere
    let unsets := id = 2 ∧ v = 0 ∧ s.settings.autoReclaim = 1
    (settingFits id v → ¬ unsets ∨ s.spaceWaiter = false →
      (u.engineRests → endsIn .setting s (posted u) nowhere) ∧
      (id ≠ 3 → looksTo u u ends (refusedAtOnce ends)) ∧ (id = 3 → looksIn .setting s (posted u) nowhere)) ∧
    (settingFits id v → unsets → requestsTo u ends ends) ∧
    (settingFits id v → ∀ t, exec .setting s = .next t → t.settings = settingWritten s.settings id v ∧
      ∃ ahead behind, t.cu.completions = s.cu.completions ++ ahead ++ done :: behind ∧
        (id = 3 → ahead = []) ∧ (id = 2 → v = 0 → behind = [])) ∧
    (∀ (f : CommitFlight) before tag after, unsets → s.tm.commit = some f →
      f.phase = .waitingSpace → s.tm.settings = none → s.freeLines < s.heldLines + f.amount + 272 →
      s.cu.flies before 0x23#8 tag after →
      endsIn .setting s (posted (commitOver u .noSpace f tag (before ++ after))) nowhere) ∧
    (¬ settingFits id v →
      concludesIn .setting s { s with cu := s.cu.answered rest (e.done .badArgument 0 0 0) } nowhere)

/-- A slot's description: A = index + 100h × mode code + 10000h when fixed, B the low key, C the high key (R143). -/
def slotDone (e : CmdEntry) (st : Status) (i : GuardIx) (g : GuardSlot) : Completion :=
  e.done st (i.val + 256 * g.mode.code + if g.fixed then 65536 else 0) g.low.toNat g.high.toNat

/-- A range that GUARD-SET refuses: a key 0000h or FFFFh, or low above high (R143). -/
abbrev badRange (low high : Key) : Prop :=
  low = 0#16 ∨ low = 0xFFFF#16 ∨ high = 0#16 ∨ high = 0xFFFF#16 ∨ high < low

/-- GUARD-SET outside FORMATTING: BAD-ARGUMENT for a slot above 7, for a mode above 2 and for a bad range of a mode
other than CLEAR; PROTECTED for a fixed slot; otherwise the slot is cleared or written, not fixed. The completion
describes the slot as it then stands, and no other slot and nothing else changes. GUARD-FIX outside FORMATTING:
BAD-ARGUMENT for a slot above 7 and for a slot not in use; a slot in use becomes, or stays, fixed; the completion
describes the slot. -/
def Obligations.GuardCommands : Prop :=
  (∀ (s : State) (e : CmdEntry) (rest : List CmdEntry), s.heads e rest → e.code = 0x38#8 → s.store.st ≠ .formatting →
    (8 ≤ e.arg0.toNat → exec .guardSet s = .next { s with cu := s.cu.answered rest (e.done .badArgument 0 0 0) }) ∧
    (∀ i : GuardIx, e.arg0.toNat = i.val →
      let described := fun st : Status => { s with cu := s.cu.answered rest (slotDone e st i (s.guards.get i)) }
      let written := fun g : GuardSlot => { s with
        guards := s.guards.set i.val g i.isLt, cu := s.cu.answered rest (slotDone e .ok i g) }
      let high : Key := BitVec.ofNat 16 (256 * e.arg2.toNat + e.arg3.toNat)
      (2 < e.arg1.toNat → exec .guardSet s = .next (described .badArgument)) ∧
      (e.arg1.toNat = 1 ∨ e.arg1.toNat = 2 → badRange e.key high → exec .guardSet s = .next (described .badArgument)) ∧
      (e.arg1.toNat = 0 ∨ (e.arg1.toNat ≤ 2 ∧ ¬ badRange e.key high) → (s.guards.get i).fixed = true →
        exec .guardSet s = .next (described .protected_)) ∧
      (e.arg1.toNat = 0 → (s.guards.get i).fixed = false → exec .guardSet s = .next (written GuardSlot.cleared)) ∧
      (e.arg1.toNat = 1 → ¬ badRange e.key high → (s.guards.get i).fixed = false → exec .guardSet s = .next
        (written { inUse := true, low := e.key, high := high, mode := .writeGuarded, fixed := false })) ∧
      (e.arg1.toNat = 2 → ¬ badRange e.key high → (s.guards.get i).fixed = false → exec .guardSet s = .next
        (written { inUse := true, low := e.key, high := high, mode := .hidden, fixed := false })))) ∧
  (∀ (s : State) (e : CmdEntry) (rest : List CmdEntry), s.heads e rest → e.code = 0x39#8 → s.store.st ≠ .formatting →
    (8 ≤ e.arg0.toNat → exec .guardFix s = .next { s with cu := s.cu.answered rest (e.done .badArgument 0 0 0) }) ∧
    (∀ i : GuardIx, e.arg0.toNat = i.val → (s.guards.get i).inUse = false → exec .guardFix s = .next
      { s with cu := s.cu.answered rest (slotDone e .badArgument i (s.guards.get i)) }) ∧
    (∀ (i : GuardIx) (g : GuardSlot), e.arg0.toNat = i.val → (s.guards.get i).inUse = true →
      g = { s.guards.get i with fixed := true } → exec .guardFix s = .next
        { s with guards := s.guards.set i.val g i.isLt, cu := s.cu.answered rest (slotDone e .ok i g) }))

/-- The mode of a key by the slots that cover it: open under none, HIDDEN under at least one HIDDEN slot whatever the
others, WRITE-GUARDED otherwise. -/
def Obligations.GuardModeOfKey : Prop :=
  ∀ (s : State) (k : Key),
    let covers := fun g : GuardSlot => g.inUse = true ∧ g.low ≤ k ∧ k ≤ g.high
    (s.guardMode k = .none ↔ ∀ i : GuardIx, ¬ covers (s.guards.get i)) ∧
    (s.guardMode k = .hidden ↔ ∃ i : GuardIx, covers (s.guards.get i) ∧ (s.guards.get i).mode = .hidden) ∧
    (s.guardMode k = .writeGuarded ↔ (∃ i : GuardIx, covers (s.guards.get i)) ∧
      ∀ i : GuardIx, covers (s.guards.get i) → (s.guards.get i).mode ≠ .hidden)

/-- SECTOR-QUERY reports the entry of a sector 0–31 in view 0 or 1 (A the erase count or the activation number, B the
live lines, C the state code with 80h for a pending mark over the dead lines); any other sector or view is
BAD-ARGUMENT. It changes nothing but the two queues. -/
def Obligations.SectorQuery : Prop :=
  ∀ (s : State) (e : CmdEntry) (rest : List CmdEntry), s.heads e rest → e.code = 0x40#8 →
    (32 ≤ e.arg0.toNat ∨ 2 ≤ e.arg1.toNat →
      exec .sectorQuery s = .next { s with cu := s.cu.answered rest (e.done .badArgument 0 0 0) }) ∧
    (∀ (i : SectorIx) (x : SectorEntry) (code : Nat), e.arg0.toNat = i.val → e.arg1.toNat ≤ 1 → s.sector i = x →
      (x.st = .blank ∧ code = 0 ∨ x.st = .active ∧ code = 1 ∨ x.st = .sealed ∧ code = 2 ∨
        x.st = .reclaiming ∧ code = 3 ∨ x.st = .erasePending ∧ code = 4 ∨ x.st = .erasing ∧ code = 5 ∨
        x.st = .retired ∧ code = 6) →
      exec .sectorQuery s = .next { s with cu := s.cu.answered rest (e.done .ok
        (if e.arg1.toNat = 0 then x.eraseCount else x.activation) x.live
        (256 * (code + if x.mark then 0x80 else 0) + x.dead)) })

/-- No command is taken while the queue is empty, the store is MOUNTING, a GET is executing, or the completion places
taken and kept are 8; nor is a head of another code (the model's own answer to a take that cannot occur, log 1). The
state then stands. A command whose code is none of the fourteen defined ones is answered UNKNOWN-COMMAND at once, in
every store state in which commands are taken, and changes nothing else. -/
def Obligations.TakesHeldBackOrUnknown : Prop :=
  (∀ (s : State) (c : Instr) (code : Byte), (c, code) ∈ takes →
    (s.cu.queue = [] ∨ s.store.st = .mounting ∨ s.cu.executing ≠ none ∨
      8 ≤ s.cu.completions.length + s.cu.inFlight.length ∨ (∃ e rest, s.cu.queue = e :: rest ∧ e.code ≠ code)) →
    exec c s = .next s) ∧
  (∀ (s : State) (e : CmdEntry) (rest : List CmdEntry), s.heads e rest →
    e.code ∉ [0x10#8, 0x11#8, 0x20#8, 0x21#8, 0x22#8, 0x23#8, 0x30#8, 0x31#8, 0x38#8, 0x39#8, 0x40#8, 0x41#8, 0x50#8,
      0x51#8] →
    exec .unknownCommand s = .next { s with cu := s.cu.answered rest (e.done .unknownCommand 0 0 0) })

/-- The answers that the store state alone gives (R161), with the command posted at once and nothing else changed but
that a background command's step ends in a grant: A, B and C are 0, but PUT and DELETE carry the staged count and bytes.
-/
def Obligations.StoreStateAnswers : Prop :=
  ∀ (s : State) (e : CmdEntry) (rest : List CmdEntry), s.heads e rest →
    let plain := fun st : Status => { s with cu := s.cu.answered rest (e.done st 0 0 0) }
    let counted := fun st : Status => { s with cu := s.cu.answered rest (stagedDone e st s.tm.staging) }
    (∀ c ∈ [Instr.get, .next], (c, e.code) ∈ takes →
      (s.store.st = .unmounted → exec c s = .next (plain .notMounted)) ∧
      (s.store.st = .formatting → exec c s = .next (plain .busy)) ∧
      (s.store.st = .powerHold → s.store.dirValid = false → exec c s = .next (plain .notMounted))) ∧
    (∀ c ∈ [Instr.put, .delete], (c, e.code) ∈ takes →
      (s.store.st = .readOnly → exec c s = .next (counted .readOnly)) ∧
      (s.store.st = .unmounted → exec c s = .next (counted .notMounted)) ∧
      (s.store.st = .formatting → exec c s = .next (counted .busy)) ∧
      (s.store.st = .powerHold → exec c s = .next (counted .powerFail))) ∧
    (∀ c ∈ [Instr.commit, .saveSettings, .reclaim], (c, e.code) ∈ takes →
      (s.store.st = .readOnly → endsIn c s (plain .readOnly) nowhere) ∧
      (s.store.st = .unmounted → endsIn c s (plain .notMounted) nowhere) ∧
      (s.store.st = .formatting → endsIn c s (plain .busy) nowhere) ∧
      (s.store.st = .powerHold → endsIn c s (plain .powerFail) nowhere)) ∧
    (s.store.st = .formatting → ∀ c ∈ [Instr.guardSet, .guardFix], (c, e.code) ∈ takes →
      exec c s = .next (plain .busy)) ∧
    (s.store.st = .formatting → ∀ c ∈ [Instr.setting, .mount, .format], (c, e.code) ∈ takes →
      endsIn c s (plain .busy) nowhere) ∧
    (s.store.st = .mounted → (Instr.mount, e.code) ∈ takes → endsIn .mount s (plain .wrongState) nowhere) ∧
    (s.store.st = .powerHold → s.pins.pfailLow = true → (Instr.mount, e.code) ∈ takes →
      endsIn .mount s (plain .powerFail) nowhere) ∧
    (s.store.st = .powerHold → (Instr.format, e.code) ∈ takes → endsIn .format s (plain .powerFail) nowhere)

/-! ### Background commands -/

/-- Lines of a commit's reservation: the lines of its operations' records, one for the COMMIT record of two or more, and
32 (R71). -/
def amountOf (l : List Staged) : Nat :=
  (l.map (fun o => (14 + o.bytes + 15) / 16)).sum + (if 2 ≤ l.length then 1 else 0) + 32

/-- COMMIT of a staging list that passes its checks, with room for its reservation and an idle Log Writer: the block
of sequence numbers and, for several operations, the transaction number are taken, the reservation is held, and the
record of the first operation is in progress: placed at the append point when it fits in the ACTIVE sector, and
otherwise waiting for the opening of the candidate. The directory and the staging list stand. A block of numbers that
would pass FFFFFFFFh is refused: the store is READ-ONLY for SEQUENCE, and the commit ends READ-ONLY with the staging
list kept and held, having taken no number and no transaction number. -/
def Obligations.CommitStarts : Prop :=
  ∀ (s : State) (e : CmdEntry) (rest : List CmdEntry) (op : Staged) (ops l : List Staged), s.heads e rest →
    e.code = 0x23#8 → s.writable → l = op :: ops → s.tm.staging = l → noWrite s →
    (∀ o ∈ l, s.guardMode o.key = .none) → op.key ≠ 0xFF01#16 → s.dir.length + s.newStaged ≤ 1024 → s.lw.idle →
    s.lw.commitRes = none → s.heldLines + amountOf l + 272 ≤ s.freeLines →
    (0xFFFFFFFF < s.lw.seqCtr + blockOf l → refusesNothing s → (∀ p ∈ s.cu.inFlight, p.1 ≠ 0x23#8) →
      endsIn .commit s
        { sequenceOver s with
          sectors := s.sectors.map (fun x => { x with mark := false })
          tm := { s.tm with held := true }
          cu := s.cu.answered rest (e.done .readOnly 0 0 0) } nowhere) ∧
    (s.lw.seqCtr + blockOf l ≤ 0xFFFFFFFF →
    let txn := if ops = [] then 0 else s.lw.txnCtr
    let r := op.record (decide (ops = [])) txn s.lw.seqCtr
    let w := { s.lw with
      commitRes := some (amountOf l), seqCtr := s.lw.seqCtr + blockOf l, flag := .reclaim
      txnCtr := if ops = [] then s.lw.txnCtr else txnAfter s.lw.txnCtr }
    let f : CommitFlight :=
      { n := l.length, amount := amountOf l, phase := .writing, first := s.lw.seqCtr, txn := txn, nextIx := 1
        written := [] }
    let u := { s with cu := s.cu.started e rest, tm := { s.tm with commit := some f } }
    (∀ p, s.lw.point = some p → r.lines ≤ 256 - p.line →
      concludesIn .commit s (u.recordPlaced w .commit r p 0) nowhere) ∧
    (∀ k, (∀ p, s.lw.point = some p → 256 - p.line < r.lines) → s.candidate = some k →
      let cur : InProgress := { stream := .commit, record := r, place := none, done := 0, failures := 0 }
      concludesIn .commit s (u.openingPlaced w (some cur) k false) nowhere))

/-- COMMIT in MOUNTED that is refused or must wait. The refusals, in the order of the checks: NOTHING-STAGED, BUSY,
PROTECTED with GUARD-REFUSAL, NO-DIRECTORY-SPACE. Without room for its reservation the commit waits for space under
AUTO-RECLAIM 1, and under 0 ends NO-SPACE at once, the staging list kept. An IDLE engine then looks for work: the
waiting commit starts the unit of R85, or, with none to start, STALLED is set, RECLAIM-STALLED raised and the commit
ended NO-SPACE. -/
def Obligations.CommitRefusedOrWaits : Prop :=
  ∀ (s : State) (e : CmdEntry) (rest : List CmdEntry), s.heads e rest → e.code = 0x23#8 → s.store.st = .mounted →
    let refused := fun st : Status => { s with cu := s.cu.answered rest (e.done st 0 0 0) }
    let guarded := ∃ o ∈ s.tm.staging, s.guardMode o.key ≠ .none
    let wide := 1024 < s.dir.length + s.newStaged
    (s.tm.staging = [] → s.tm.commit = none → concludesIn .commit s (refused .nothingStaged) nowhere) ∧
    (s.tm.commit ≠ none ∨ (s.tm.staging ≠ [] ∧ s.tm.settings ≠ none) →
      concludesIn .commit s (refused .busy) nowhere) ∧
    (s.tm.staging ≠ [] → noWrite s → guarded →
      concludesIn .commit s { refused .protected_ with win := s.win.raised .guardRefusal } nowhere) ∧
    (s.tm.staging ≠ [] → noWrite s → ¬ guarded → wide → concludesIn .commit s (refused .noDirectorySpace) nowhere) ∧
    (s.tm.staging ≠ [] → noWrite s → ¬ guarded → ¬ wide → s.lw.stopped = false → s.lw.commitRes = none →
      s.freeLines < s.heldLines + amountOf s.tm.staging + 272 →
      (s.settings.autoReclaim = 1 →
        let f : CommitFlight :=
          { n := s.tm.staging.length, amount := amountOf s.tm.staging, phase := .waitingSpace, first := 0, txn := 0
            nextIx := 0, written := [] }
        concludesIn .commit s { s with cu := s.cu.started e rest, tm := { s.tm with commit := some f } } nowhere) ∧
      (s.settings.autoReclaim = 0 → (∀ p ∈ s.cu.inFlight, p.1 ≠ 0x23#8) →
        endsIn .commit s
          { refused .noSpace with sectors := s.sectors.map (fun x => { x with mark := false }) } nowhere))

/-- SAVE-SETTINGS that passes its checks, with room for 5 + 32 lines: the 52-byte payload of settings and slots is
formed, one sequence number is taken, and the settings record, whose sector is not marked pending, is placed at the
append point. BUSY, PROTECTED with GUARD-REFUSAL and NO-DIRECTORY-SPACE refuse it in this order. Without room it ends
NO-SPACE under AUTO-RECLAIM 0 and waits under 1, where an IDLE engine then starts a unit or, with none to start, sets
STALLED and the settings write ends NO-SPACE. A refused number makes the store READ-ONLY for SEQUENCE, and the write
ends READ-ONLY. -/
def Obligations.SaveSettings : Prop :=
  ∀ (s : State) (e : CmdEntry) (rest : List CmdEntry), s.heads e rest → e.code = 0x31#8 → s.writable →
    let refused := fun st : Status => { s with cu := s.cu.answered rest (e.done st 0 0 0) }
    let payload := settingsPayload s.settings s.guards
    let guarded := s.guardMode 0xFF01#16 ≠ .none
    let wide := s.entry 0xFF01#16 = none ∧ 1024 ≤ s.dir.length
    let alone := ∀ p ∈ s.cu.inFlight, p.1 ≠ 0x31#8
    (¬ noWrite s → concludesIn .saveSettings s (refused .busy) nowhere) ∧
    (noWrite s → guarded →
      concludesIn .saveSettings s { refused .protected_ with win := s.win.raised .guardRefusal } nowhere) ∧
    (noWrite s → ¬ guarded → wide → concludesIn .saveSettings s (refused .noDirectorySpace) nowhere) ∧
    (noWrite s → ¬ guarded → ¬ wide → s.lw.commitRes = none →
      (∀ p, s.heldLines + 37 + 272 ≤ s.freeLines → s.lw.seqCtr + 1 ≤ 0xFFFFFFFF → s.lw.idle → s.lw.point = some p →
        5 ≤ 256 - p.line →
        let f : SettingsFlight := { phase := .writing, payload := payload, seq := s.lw.seqCtr }
        let w := { s.lw with commitRes := some 37, seqCtr := s.lw.seqCtr + 1, flag := .reclaim }
        let u := State.recordPlaced
          { s with cu := s.cu.started e rest, tm := { s.tm with settings := some f } } w .commit
          (settingsRecord payload s.lw.seqCtr) p 0
        u.sector p.sector = { s.sector p.sector with dead := (s.sector p.sector).dead + 1 } ∧
          concludesIn .saveSettings s u nowhere) ∧
      (s.heldLines + 37 + 272 ≤ s.freeLines → 0xFFFFFFFF < s.lw.seqCtr + 1 → refusesNothing s → alone →
        endsIn .saveSettings s
          { sequenceOver s with cu := s.cu.answered rest (e.done .readOnly 0 0 0) } nowhere) ∧
      (s.freeLines < s.heldLines + 37 + 272 → s.settings.autoReclaim = 1 →
        let f : SettingsFlight := { phase := .waitingSpace, payload := payload, seq := 0 }
        concludesIn .saveSettings s
          { s with cu := s.cu.started e rest, tm := { s.tm with settings := some f } } nowhere) ∧
      (s.freeLines < s.heldLines + 37 + 272 → s.settings.autoReclaim = 0 → alone →
        endsIn .saveSettings s (refused .noSpace) nowhere))

/-- The commit's next record is offered once every record offered so far has been reported written: the operation's
record in list order, or after the last the COMMIT record naming their number; the idle Log Writer places it. Once
the Log Writer has stopped the offer is refused, and the commit ends POWER-FAIL, or READ-ONLY in READ-ONLY, with the
staging list held. -/
def Obligations.CommitRecordOffer : Prop :=
  ∀ (s : State) (f : CommitFlight) (r : Record), s.tm.commit = some f → f.phase = .writing → 2 ≤ f.n →
    f.n = s.tm.staging.length → f.written.length = f.nextIx → f.nextIx ≤ f.n →
    (∀ op, s.tm.staging[f.nextIx]? = some op → r = op.record false f.txn (f.first + f.nextIx)) →
    (f.nextIx = f.n → r = commitRecord f.n f.txn (f.first + f.n)) → r.key ≠ 0xFF01#16 →
    (∀ p, s.writable → s.lw.idle → s.lw.point = some p → r.lines ≤ 256 - p.line →
      let w := { s.lw with flag := .reclaim }
      let u := { s with tm := { s.tm with commit := some { f with nextIx := f.nextIx + 1 } } }
      concludesIn .commitRecordOffer s (u.recordPlaced w .commit r p 0) nowhere) ∧
    (∀ before tag after st, halted s st → s.cu.flies before 0x23#8 tag after →
      endsIn .commitRecordOffer s
        { s with
          sectors := s.sectors.map (fun x => { x with mark := false })
          lw := { s.lw with commitRes := none }
          tm := { s.tm with commit := none, held := true }
          cu := s.cu.ended (before ++ after) (flightDone 0x23#8 tag st f.first f.written.length f.txn) } nowhere)

/-- RECLAIM in MOUNTED: BUSY while the engine works; NOT-FOUND without a sector to work on; NO-SPACE when the unit
that R85 would take, the resumed pass of the lowest RECLAIMING sector or a pass over a new victim, has no room. After
a refusal an IDLE engine looks for work by itself, and may be STALLED. Otherwise the unit starts with the command as
its owner: the lowest ERASE-PENDING sector is erased or, at the endurance limit, retired; the walk of the lowest
RECLAIMING one begins anew; or the victim, the passable sector with the fewest live lines and of these the oldest, is
named by a RECLAIM-BEGIN. With its sequence number refused the store is READ-ONLY for SEQUENCE and the command ends
READ-ONLY. -/
def Obligations.Reclaim : Prop :=
  ∀ (s : State) (e : CmdEntry) (rest : List CmdEntry), s.heads e rest → e.code = 0x41#8 → s.writable →
    let refused := fun st : Status => { s with cu := s.cu.answered rest (e.done st 0 0 0) }
    let useful := fun v : SectorIx => (s.sector v).st = .reclaiming ∨
      ((s.sector v).st = .sealed ∧ 1 ≤ (s.sector v).dead ∧ (s.sector v).mark = false)
    (s.eng.st ≠ .idle → endsIn .reclaim s (refused .busy) nowhere) ∧
    (s.eng.st = .idle → (∀ v, (s.sector v).st ≠ .erasePending ∧ ¬ useful v) →
      concludesIn .reclaim s (refused .notFound) nowhere) ∧
    (s.eng.st = .idle → (∃ v, useful v) → unitless s → concludesIn .reclaim s (refused .noSpace) nowhere) ∧
    (s.eng.st = .idle → startsIn .reclaim s { s with cu := s.cu.started e rest } (.command e.tag) nowhere)

/-- No commit, settings write or RECLAIM is in flight and the engine is IDLE (R133, R134). -/
abbrev noWork (s : State) : Prop :=
  noWrite s ∧ (∀ p ∈ s.cu.inFlight, p.1 ≠ 0x41#8) ∧ s.eng.st = .idle

/-- MOUNT in UNMOUNTED, READ-ONLY, or POWER-HOLD with PFAIL# high: BUSY while work is in flight; otherwise the command
is in flight, the RAM state is empty but for settings, guards and the queues, and the READ of sector 0's stamps is
placed in slot M. -/
def Obligations.MountTaken : Prop :=
  ∀ (s : State) (e : CmdEntry) (rest : List CmdEntry), s.heads e rest → e.code = 0x50#8 → s.pins.pfailLow = false →
    s.store.st = .unmounted ∨ s.store.st = .readOnly ∨ s.store.st = .powerHold →
    (¬ noWork s → endsIn .mount s { s with cu := s.cu.answered rest (e.done .busy 0 0 0) } nowhere) ∧
    (noWork s → s.arr.m = none → endsIn .mount s
      { mountBegun s s.pins with
        cu := s.cu.started e rest
        arr := s.arr.put .m (.readLines 0 0 2)
        store := { (mountBegun s s.pins).store with mount := some (.command e.tag) } } nowhere)

/-- What the taking of FORMAT makes of an entry (R135). -/
def entryForFormat (x : SectorEntry) : SectorEntry :=
  if x.st = .active ∨ x.st = .sealed ∨ x.st = .reclaiming then
    { x with mark := false, retireLoc := none, st := .erasePending, live := 0, dead := 0 }
  else { x with mark := false, retireLoc := none }

/-- FORMAT outside FORMATTING and POWER-HOLD: PROTECTED while a slot is fixed, BUSY while work is in flight, READ-ONLY
at generation 65535; otherwise the store is FORMATTING with the generation raised by 1 and the RAM state empty, and
the READ of line 0 of sector 0 is placed in slot M. -/
def Obligations.FormatTaken : Prop :=
  ∀ (s : State) (e : CmdEntry) (rest : List CmdEntry), s.heads e rest → e.code = 0x51#8 →
    s.store.st = .unmounted ∨ s.store.st = .readOnly ∨ s.store.st = .mounted →
    let refused := fun st : Status => { s with cu := s.cu.answered rest (e.done st 0 0 0) }
    let fixed := ∃ i : GuardIx, (s.guards.get i).fixed = true
    let g := s.store.generation + 1
    let f : FormatFlight := { generation := g, toRetire := [], tag := e.tag, step := .reading 0 }
    (fixed → endsIn .format s (refused .protected_) nowhere) ∧
    (¬ fixed → ¬ noWork s → endsIn .format s (refused .busy) nowhere) ∧
    (¬ fixed → noWork s → 65535 ≤ s.store.generation → endsIn .format s (refused .readOnly) nowhere) ∧
    (¬ fixed → noWork s → s.store.generation < 65535 → s.arr.m = none → endsIn .format s
      { s with
        cu := s.cu.started e rest
        dir := []
        sectors := s.sectors.map entryForFormat
        lw := LogWriter.reset
        tm := { s.tm with staging := [], held := false }
        eng := { s.eng with stalled := false }
        arr := s.arr.put .m (.readLines 0 0 1)
        store := { s.store with
          st := .formatting, cause := .none, dirValid := false, result := .none, generation := g, format := some f
          req := some { purpose := .formatRead 0, abandoned := false } } } nowhere)

/-! ### Ends of the Log Writer's programs -/

/-- The array after a PROGRAM of a line that passed its verify holds the 16 bytes there (R103). -/
abbrev holdsLine (t : State) (sec : SectorIx) (line : Nat) (data : List Byte) : Prop :=
  ∀ i, i < 16 → t.flash.byte (lineNo sec line) i = byteAt data i

/-- The state after a PROGRAM of slot `x` has ended, before what its requester does (R103, R105). -/
def programOver (s : State) (x : SlotId) (sec : SectorIx) (line : Nat) (data : List Byte) (v : Verify) : State :=
  { s with
    arr := s.arr.ended x
    flash := if v = .passed then s.flash.endProgram sec line data else s.flash.failProgram sec line }

/-- Lines of the record that a key's entry refers to, in a sector (R35). -/
def entryLines (s : State) (k : Key) (j : SectorIx) : Nat :=
  match s.entry k with
  | some d => if d.loc.sector = j then d.lines else 0
  | none => 0

/-- Lines in a sector that the operations of a commit give up as it completes (R35, R54). -/
def givenIn (s : State) (l : List Staged) (j : SectorIx) : Nat :=
  (l.map (fun o => entryLines s o.key j)).sum

/-- Lines in a sector that the records of a commit's operations, written at `places`, take as it completes (R35). -/
def takenIn (l : List Staged) (places : List Loc) (j : SectorIx) : Nat :=
  (List.zipWith (fun (o : Staged) (p : Loc) => if p.sector = j then o.lines else 0) l places).sum

/-- In every sector that holds them, the lines given up have turned from live to dead and the lines taken from dead to
live (R35). -/
abbrev linesCounted (s : State) (sectors : Vector SectorEntry 32) (given taken : SectorIx → Nat) : Prop :=
  ∀ j, given j ≤ (s.sector j).live → taken j ≤ (s.sector j).dead →
    (sectors.get j).live + given j = (s.sector j).live + taken j ∧
      (sectors.get j).dead + taken j = (s.sector j).dead + given j

/-- STALLED after records of some keys have been given up: cleared when one of them lay in a SEALED sector (R99). -/
abbrev stalledAfter (s : State) (keys : List Key) (stalled : Bool) : Prop :=
  stalled = true ↔
    s.eng.stalled = true ∧ ∀ k ∈ keys, ∀ d, s.entry k = some d → (s.sector d.loc.sector).st ≠ .sealed

/-- The program of a record line ends. Passed before the record's last line, the line holds its 16 bytes and the
record's next line is requested. Of the last lines, this statement takes the one of a COMMIT of one operation, which
completes: the directory takes the record, whose lines turn live, the lines of the record given up turn dead and, in a
SEALED sector, clear STALLED; the marks are cleared, the reservation is released, the staging list is empty, and the
completion is OK with its sequence number and 1 record; `CommitStreamWritten`, `CopyWritten` and `MarkerWritten` take
the others. At a first failure PROGRAM-FAULT is raised and an early opening begins for which the record waits; without
a BLANK sector the record is refused NO-SPACE. At a second one the record is refused ARRAY-FAULT, and an early opening
begins for no record where a sector is BLANK. In POWER-HOLD and READ-ONLY a line before the last that has passed, and
any line that has failed, has the record refused POWER-FAIL or READ-ONLY, a line that was still asked for in
POWER-HOLD staying counted (logs 13 and 26). A refusal ends the commit, the settings write or the unit that offered
the record. -/
def Obligations.LineProgramEnd : Prop :=
  ∀ (s : State) (sec : SectorIx) (line : Nat) (data : List Byte) (cur : InProgress) (loc : Loc),
    performs s .l (.program sec line data) → 2 ≤ line → s.lw.current = some cur → cur.place = some loc →
    let stored := fun ln => ln = lineNo sec line
    let gone := programOver s .l sec line data .passed
    let failed := { programOver s .l sec line data .failed with win := s.win.raised .programFault }
    let given := { s.lw with current := none }
    let w := { s.lw with
      current := some { cur with done := cur.done + 1 }
      point := s.lw.point.map (fun p => { p with line := p.line + 1 })
      commitRes := oneCharged cur.stream .commit s.lw.commitRes
      reclaimRes := oneCharged cur.stream .reclaim s.lw.reclaimRes }
    let asked := s.sectors.set loc.sector.val
      { s.sector loc.sector with dead := (s.sector loc.sector).dead + 1 } loc.sector.isLt
    let blankless := ∀ j, (s.sector j).st ≠ .blank
    let unready := s.lw.commitReady = none ∧ s.lw.reclaimReady = none
    (cur.done + 1 < cur.record.lines →
      (data.length = 16 → s.flash.wf = true → holdsLine gone sec line data) ∧
      (s.writable →
        let u := { gone with
          lw := w
          sectors := asked
          arr := (s.arr.ended .l).put .l
            (.program loc.sector (loc.line + (cur.done + 1)) (cur.record.lineData (cur.done + 1))) }
        concludesIn (.lineProgramEnd .passed) s u stored ∧
          (data.length = 16 → s.flash.wf = true → holdsLine u.grant sec line data)) ∧
      (s.store.st = .powerHold → s.lw.stopped = true →
        refusesIn (.lineProgramEnd .passed) s cur.stream { gone with lw := { w with current := none }, sectors := asked }
          .powerFail stored) ∧
      (s.store.st = .readOnly → s.lw.stopped = false →
        refusesIn (.lineProgramEnd .passed) s cur.stream { gone with lw := given } .readOnly stored)) ∧
    (∀ (f : CommitFlight) (op : Staged) before tag after, cur.record.lines ≤ cur.done + 1 → cur.stream = .commit →
      s.tm.commit = some f → f.n = 1 → f.written = [] → s.tm.staging = [op] → s.tm.settings = none →
      s.lw.opening = none → unready → s.cu.flies before 0x23#8 tag after →
      State.engineRests { s with tm := { s.tm with staging := [], commit := none } } →
      ∃ dir sectors stalled stale,
        endsIn (.lineProgramEnd .passed) s
          { gone with
            dir := dir
            sectors := sectors
            eng := { s.eng with stalled := stalled }
            lw := { given with commitRes := none }
            tm := { s.tm with staging := [], commit := none }
            cu := s.cu.ended (before ++ after) (flightDone 0x23#8 tag .ok f.first 1 f.txn) } stored ∧
        stalledAfter s [op.key] stalled ∧
        dirFind dir op.key = some { key := op.key, present := op.value.isSome, loc := loc, lines := op.lines
                                    length := op.bytes, seq := f.first, stale := stale } ∧
        (stale = true ↔
          op.value = none ∧ ∃ old, s.entry op.key = some old ∧ earlier s loc.sector old.loc.sector) ∧
        (∀ k, k ≠ op.key → dirFind dir k = s.entry k) ∧
        (∀ j : SectorIx, sectors.get j =
            { s.sector j with live := (sectors.get j).live, dead := (sectors.get j).dead, mark := false } ∧
          (sectors.get j).live + (sectors.get j).dead = (s.sector j).live + (s.sector j).dead) ∧
        linesCounted s sectors (givenIn s [op]) (takenIn [op] [loc])) ∧
    (s.writable →
      (∀ k, s.candidate = some k → cur.failures = 0 →
        let u := State.openingPlaced failed s.lw (some { cur with place := none, done := 0, failures := 1 }) k true
        concludesIn (.lineProgramEnd .failed) s u nowhere) ∧
      (∀ k, s.candidate = some k → cur.failures ≠ 0 →
        refusesIn (.lineProgramEnd .failed) s cur.stream (State.openingPlaced failed s.lw none k true) .arrayFault
          nowhere) ∧
      (blankless → unready →
        refusesIn (.lineProgramEnd .failed) s cur.stream { failed with lw := given }
          (if cur.failures = 0 then .noSpace else .arrayFault) nowhere)) ∧
    (∀ st, halted s st →
      refusesIn (.lineProgramEnd .failed) s cur.stream { failed with lw := given } st nowhere)

/-- The last line of a record passes its verify, in whatever store state, with no record ready behind it: what the
claims on the last lines assume (R19). -/
abbrev lastLine (s : State) (sec : SectorIx) (line : Nat) (data : List Byte) (cur : InProgress) (x : Loc) : Prop :=
  performs s .l (.program sec line data) ∧ 2 ≤ line ∧ s.lw.current = some cur ∧ cur.place = some x ∧
    cur.record.lines ≤ cur.done + 1 ∧ s.lw.opening = none ∧ s.lw.commitReady = none ∧ s.lw.reclaimReady = none

/-- The state once the last line has been programmed and the record has left the Log Writer (R19, R103). -/
def recordOver (s : State) (sec : SectorIx) (line : Nat) (data : List Byte) : State :=
  { programOver s .l sec line data .passed with lw := { s.lw with current := none } }

/-- A record of the commit stream is reported written. One of several operations that is not the commit's last is
counted with its place, and nothing else changes. After the COMMIT record the commit completes: for every staged
operation the directory takes its record, the stale-copy mark of a DELETED entry set when the record given up lies in
a newer sector; in every sector the lines taken turn live and the lines given up turn dead, which in a SEALED sector
clears STALLED; the marks are cleared, the reservation is released, the staging list is empty, and the completion is
OK with the first sequence number, one record more than the operations, and the transaction number. After the settings
record the settings entry takes it, lines and STALLED alike, the reservation is released, no mark changes, and the
completion is OK with its sequence number. The store may meanwhile be in READ-ONLY or POWER-HOLD; that in READ-ONLY a
record before the commit's last is still reported written, and counted, is the model's own choice (log 41). -/
def Obligations.CommitStreamWritten : Prop :=
  ∀ (s : State) (sec : SectorIx) (line : Nat) (data : List Byte) (cur : InProgress) (x : Loc),
    lastLine s sec line data cur x → cur.stream = .commit →
    let stored := fun ln => ln = lineNo sec line
    let gone := recordOver s sec line data
    (∀ f : CommitFlight, s.tm.commit = some f → f.written.length + 1 < (if f.n = 1 then 1 else f.n + 1) →
      let u := { gone with tm := { s.tm with commit := some { f with written := f.written ++ [x] } } }
      concludesIn (.lineProgramEnd .passed) s u stored) ∧
    (∀ (f : CommitFlight) before tag after, s.tm.commit = some f → 2 ≤ f.n → f.n = s.tm.staging.length →
      f.written.length = f.n → (s.tm.staging.map Staged.key).Nodup → s.cu.flies before 0x23#8 tag after →
      State.engineRests { s with tm := { s.tm with staging := [], commit := none } } →
      ∃ dir sectors stalled,
        endsIn (.lineProgramEnd .passed) s { gone with
          dir := dir
          sectors := sectors
          eng := { s.eng with stalled := stalled }
          lw := { gone.lw with commitRes := none }
          tm := { s.tm with staging := [], commit := none }
          cu := s.cu.ended (before ++ after) (flightDone 0x23#8 tag .ok f.first (f.n + 1) f.txn) } stored ∧
        (∀ i op l, s.tm.staging[i]? = some op → f.written[i]? = some l →
          ∃ stale, dirFind dir op.key = some { key := op.key, present := op.value.isSome, loc := l, lines := op.lines
                                               length := op.bytes, seq := f.first + i, stale := stale } ∧
            (stale = true ↔
              op.value = none ∧ ∃ old, s.entry op.key = some old ∧ earlier s l.sector old.loc.sector)) ∧
        (∀ k, (∀ op ∈ s.tm.staging, op.key ≠ k) → dirFind dir k = s.entry k) ∧
        (∀ j : SectorIx, sectors.get j =
            { s.sector j with live := (sectors.get j).live, dead := (sectors.get j).dead, mark := false } ∧
          (sectors.get j).live + (sectors.get j).dead = (s.sector j).live + (s.sector j).dead) ∧
        linesCounted s sectors (givenIn s s.tm.staging) (takenIn s.tm.staging f.written) ∧
        stalledAfter s (s.tm.staging.map Staged.key) stalled) ∧
    (∀ (f : SettingsFlight) before tag after, s.tm.commit = none → s.tm.settings = some f → f.payload.length = 52 →
      s.cu.flies before 0x31#8 tag after → State.engineRests { s with tm := { s.tm with settings := none } } →
      ∃ dir sectors stalled,
        endsIn (.lineProgramEnd .passed) s { gone with
          dir := dir
          sectors := sectors
          eng := { s.eng with stalled := stalled }
          lw := { gone.lw with commitRes := none }
          tm := { s.tm with settings := none }
          cu := s.cu.ended (before ++ after) (flightDone 0x31#8 tag .ok f.seq 0 0) } stored ∧
        dirFind dir 0xFF01#16 = some { key := 0xFF01#16, present := true, loc := x, lines := 5, length := 52
                                       seq := f.seq, stale := false } ∧
        (∀ k, k ≠ 0xFF01#16 → dirFind dir k = s.entry k) ∧
        (∀ j : SectorIx, sectors.get j =
            { s.sector j with live := (sectors.get j).live, dead := (sectors.get j).dead } ∧
          (sectors.get j).live + (sectors.get j).dead = (s.sector j).live + (s.sector j).dead) ∧
        linesCounted s sectors (entryLines s 0xFF01#16) (fun j => if x.sector = j then 5 else 0) ∧
        stalledAfter s [0xFF01#16] stalled)

/-- The Log Writer's open stamp program ends. Passed, the candidate is ACTIVE with the stamp's numbers, the old ACTIVE
sector is SEALED with its unused lines dead, lines an ordinary sector change skips are charged to the waiting record's
stream and those of an early one are not, and the record that waits is placed at line 2. Failed, PROGRAM-FAULT is
raised, the candidate is ERASE-PENDING and the opening goes on with the BLANK sector that has the lowest erase count,
of equals the lowest index; with no BLANK sector left the record that waits is refused NO-SPACE. In POWER-HOLD and
READ-ONLY the sector change is made, or the candidate is ERASE-PENDING, and the record is refused POWER-FAIL or
READ-ONLY. A refusal ends the commit, the settings write or the unit that offered the record. An opening that no
record waits for ends likewise, and of the records that have become ready meanwhile the one whose turn it is is placed
at line 2. -/
def Obligations.OpenStampProgramEnd : Prop :=
  ∀ (s : State) (sec : SectorIx) (data : List Byte) (o : Opening) (p : AppendPoint),
    performs s .l (.program sec 1 data) → s.lw.opening = some o → s.lw.point = some p → p.sector ≠ o.candidate →
    let stored := fun ln => ln = lineNo sec 1
    let old := { s.sector p.sector with st := .sealed, dead := (s.sector p.sector).dead + (256 - p.line) }
    let new := { s.sector o.candidate with
      st := .active, activation := o.activation, openingSeq := o.openingSeq, live := 0, dead := 0 }
    let opened := { programOver s .l sec 1 data .passed with
      sectors := (s.sectors.set p.sector.val old p.sector.isLt).set o.candidate.val new o.candidate.isLt }
    let first : AppendPoint := { sector := o.candidate, line := 2 }
    let lost := { s.sector o.candidate with st := .erasePending, live := 0, dead := 0 }
    let gone := { programOver s .l sec 1 data .failed with
      win := s.win.raised .programFault
      sectors := s.sectors.set o.candidate.val lost o.candidate.isLt }
    let next := fun k => k ≠ o.candidate ∧ (s.sector k).st = .blank ∧
      ∀ j, j ≠ o.candidate → (s.sector j).st = .blank → (s.sector k).eraseCount < (s.sector j).eraseCount ∨
        ((s.sector k).eraseCount = (s.sector j).eraseCount ∧ k ≤ j)
    let blankless := ∀ j, j ≠ o.candidate → (s.sector j).st ≠ .blank
    let unready := s.lw.commitReady = none ∧ s.lw.reclaimReady = none
    let freed := { s.lw with current := none, opening := none }
    (data.length = 16 → s.flash.wf = true → holdsLine opened sec 1 data) ∧
    (∀ cur, s.lw.current = some cur →
      let w := { s.lw with
        opening := none
        commitRes := if cur.stream = .commit ∧ o.early = false then s.lw.commitRes.map (fun n => n - (256 - p.line))
          else s.lw.commitRes
        reclaimRes := if cur.stream = .reclaim ∧ o.early = false then s.lw.reclaimRes.map (fun n => n - (256 - p.line))
          else s.lw.reclaimRes }
      (s.writable →
        let u := State.recordPlaced opened w cur.stream cur.record first cur.failures
        concludesIn (.openStampProgramEnd .passed) s u stored ∧
          (data.length = 16 → s.flash.wf = true → holdsLine u.grant sec 1 data)) ∧
      (∀ st, halted s st → refusesIn (.openStampProgramEnd .passed) s cur.stream
        { opened with lw := { w with current := none, point := some first } } st stored) ∧
      (s.writable →
        (∀ k, next k →
          concludesIn (.openStampProgramEnd .failed) s (gone.openingPlaced s.lw (some cur) k o.early) nowhere) ∧
        (blankless → unready → refusesIn (.openStampProgramEnd .failed) s cur.stream { gone with lw := freed } .noSpace
          nowhere)) ∧
      (∀ st, halted s st →
        refusesIn (.openStampProgramEnd .failed) s cur.stream { gone with lw := freed } st nowhere)) ∧
    (s.lw.current = none →
      (unready → concludesIn (.openStampProgramEnd .passed) s { opened with lw := { freed with point := some first } }
        stored) ∧
      (∀ (x : Stream) (r : Record), s.writable → r.lines ≤ 254 →
        (x = .commit → s.lw.commitReady = some r ∧ (s.lw.reclaimReady = none ∨ s.lw.flag = .commit)) →
        (x = .reclaim → s.lw.reclaimReady = some r ∧ (s.lw.commitReady = none ∨ s.lw.flag = .reclaim)) →
        let taken := { freed with
          commitReady := if x = .commit then none else s.lw.commitReady
          reclaimReady := if x = .reclaim then none else s.lw.reclaimReady
          flag := if x = .commit then .reclaim else .commit }
        concludesIn (.openStampProgramEnd .passed) s (opened.recordPlaced taken x r first 0) stored) ∧
      (∀ k, s.writable → next k →
        concludesIn (.openStampProgramEnd .failed) s (gone.openingPlaced s.lw none k o.early) nowhere) ∧
      (unready → blankless ∨ (∃ st, halted s st) →
        concludesIn (.openStampProgramEnd .failed) s { gone with lw := freed } nowhere))

/-! ### The engine's operations -/

/-- The walk at a line from which it reads next (R88). -/
def walksOn (u : State) (g : Engine) (v : SectorIx) : State :=
  { u with eng := g, arr := u.arr.put .c (.readRecord v g.cursor .header) }

/-- No sector that is ACTIVE, SEALED or RECLAIMING comes before a sector in activation order (R57, R89). -/
abbrev oldestInLog (s : State) (v : SectorIx) : Prop :=
  ∀ j, (s.sector j).st = .active ∨ (s.sector j).st = .sealed ∨ (s.sector j).st = .reclaiming → ¬ earlier s j v

/-- A valid record read at a place is copied: what an entry refers to, but for a tombstone to be dropped; what the
retired list names; a COMMIT that protects a record outside the sector; the RECLAIM-END of a sector retired without a
location (R16, R89). -/
abbrev copied (s : State) (l : Loc) (rec : Record) : Prop :=
  (rec.kind = .value ∧ ∃ d, s.entryAt l = some d ∧ d.seq = rec.seq) ∨
  (rec.kind = .tombstone ∧ ∃ d, s.entryAt l = some d ∧ d.present = false ∧ d.seq = rec.seq ∧
    (¬ oldestInLog s l.sector ∨ d.stale = true)) ∨
  (rec.kind = .retire ∧ ∃ j, (s.sector j).st = .retired ∧ (s.sector j).retireLoc = some l) ∨
  (rec.kind = .commit ∧ ∃ d ∈ s.dir, rec.seq - rec.operand ≤ d.seq ∧ d.seq < rec.seq ∧ d.loc.sector ≠ l.sector) ∨
  (rec.kind = .reclaimEnd ∧ ∃ j : SectorIx, j.val = rec.operand ∧ (s.sector j).st = .retired ∧
    (s.sector j).retireLoc = none)

/-- A tombstone read at a place is dropped (R57, R89). -/
abbrev dropped (s : State) (l : Loc) (rec : Record) : Prop :=
  rec.kind = .tombstone ∧ ∃ d, s.entryAt l = some d ∧ d.present = false ∧ d.seq = rec.seq ∧
    oldestInLog s l.sector ∧ d.stale = false

/-- The copy of a record: SOLO and RELOCATED, with a transaction number for a COMMIT record only (R90). -/
def copyOf (rec : Record) : Record :=
  { rec with solo := true, relocated := true, txn := if rec.kind = .commit then rec.txn else 0 }

/-- A READ of the walk of victim `v` at line `p` ends, with a result and the draws it made (R88). -/
abbrev walkReads (s : State) (r : ReadOutcome) (v : SectorIx) (p : Nat) (rr : ReadResult) (n : Nat) : Prop :=
  s.eng.st = .copying ∧ s.eng.sector = some v ∧ s.eng.cursor = p ∧
    ∃ len, performs s .c (.readRecord v p len) ∧ (s.readRecord v p len r).1 = rr ∧
      (s.readRecord v p len r).2.freeCount = n

/-- The engine with its cursor moved on (R88). -/
abbrev cursorAt (g : Engine) (q : Nat) : Engine :=
  { g with cursor := q, attempts := 0, firstRef := none }

/-- The READ of the walk returns a valid record. One that is to be copied is offered as a copy, which the idle Log
Writer places, or opens a sector for, and which stays ready while another record is in progress: a VALUE or a
TOMBSTONE its entry refers to, a RETIRE the retired list names, a COMMIT that protects a record outside the victim,
the RECLAIM-END of a sector retired without a location. A tombstone to be dropped leaves the directory, its lines
turning dead, and the walk goes on behind it. Any other record, whatever its kind, is passed over by its lines. -/
def Obligations.WalkRecords : Prop :=
  ∀ (s : State) (r : ReadOutcome) (v : SectorIx) (p : Nat) (rr : ReadResult) (n : Nat) (rec : Record),
    walkReads s r v p rr n → s.store.st = .mounted → isBlankLine rr.bytes = false → validRecordAt p rr = some rec →
    let gone := readOver s n .c
    let l : Loc := { sector := v, line := p }
    (copied s l rec → s.lw.stopped = false → s.pins.pfailLow = false →
      offersIn (.reclaimReadEnd r) s gone s.lw (copyOf rec) nowhere) ∧
    (∀ d, dropped s l rec → s.entryAt l = some d → s.entry rec.key = some d → (s.sector v).st = .reclaiming →
      d.lines ≤ (s.sector v).live → p + rec.lines < 256 →
      let x := { s.sector v with live := (s.sector v).live - d.lines, dead := (s.sector v).dead + d.lines }
      endsIn (.reclaimReadEnd r) s
        (walksOn
          { gone with
            dir := s.dir.filter (fun y => decide (y.key ≠ rec.key))
            sectors := s.sectors.set v.val x v.isLt }
          (cursorAt s.eng (p + rec.lines)) v) nowhere) ∧
    (¬ copied s l rec → ¬ dropped s l rec → p + rec.lines < 256 →
      endsIn (.reclaimReadEnd r) s (walksOn gone (cursorAt s.eng (p + rec.lines)) v) nowhere)

/-- The READ of the walk returns no valid record. A blank line that nothing refers to is passed over; past line 255 a
RECLAIM-END with the copy count and the next sequence number is offered; with the number refused the store is
READ-ONLY for SEQUENCE and the unit ends READ-ONLY, its sector left as it is. Any other line is read again, what
refers to it kept. At the second failure: the entry that referred to it is removed, READ-FAULT raised, and the entry's
lines are passed over, or, superseded since, it stands; a RETIRE location that referred to it becomes none and its
line dead, READ-FAULT raised; with no reference the line is torn and no indication is raised. In POWER-HOLD and
READ-ONLY a READ that still ends ends the unit POWER-FAIL or READ-ONLY (logs 12, 24 and 39). -/
def Obligations.ReclaimReadEnd : Prop :=
  ∀ (s : State) (r : ReadOutcome) (v : SectorIx) (p : Nat) (rr : ReadResult) (n : Nat), walkReads s r v p rr n →
    let gone := readOver s n .c
    let l : Loc := { sector := v, line := p }
    let on := cursorAt s.eng
    let blank := isBlankLine rr.bytes = true ∧ s.entryAt l = none ∧ s.retiredAt l = none
    let ref : Option LineRef := match s.entryAt l with
      | some d => some (.entry d.key d.seq d.lines)
      | none => (s.retiredAt l).map LineRef.retireLoc
    (∀ st, halted s st →
      (blank ∨ (∃ rec, ¬ blank ∧ validRecordAt p rr = some rec ∧ ¬ dropped s l rec) ∨
        (¬ blank ∧ validRecordAt p rr = none ∧ (s.eng.attempts = 0 ∨ s.eng.firstRef = none)) →
        unitEndsIn (.reclaimReadEnd r) s gone v st nowhere)) ∧
    (s.store.st = .mounted →
    (blank → p + 1 < 256 → endsIn (.reclaimReadEnd r) s (walksOn gone (on (p + 1)) v) nowhere) ∧
    (blank → 256 ≤ p + 1 → s.lw.stopped = false → s.pins.pfailLow = false →
      (s.lw.seqCtr + 1 ≤ 0xFFFFFFFF →
        offersIn (.reclaimReadEnd r) s { gone with eng := { on (p + 1) with st := .ending } }
          { s.lw with seqCtr := s.lw.seqCtr + 1 } (reclaimEndRecord v s.eng.copyCount s.lw.seqCtr) nowhere) ∧
      (0xFFFFFFFF < s.lw.seqCtr + 1 →
        haltsIn (.reclaimReadEnd r) s { gone with eng := on (p + 1) } v nowhere)) ∧
    (validRecordAt p rr = none → ¬ blank → s.eng.attempts = 0 → p < 256 →
      endsIn (.reclaimReadEnd r) s (walksOn gone { s.eng with attempts := 1, firstRef := ref } v) nowhere) ∧
    (∀ k q m d, validRecordAt p rr = none → ¬ blank → s.eng.attempts ≠ 0 →
      s.eng.firstRef = some (.entry k q m) → s.entry k = some d → d.seq = q → p + m < 256 →
      ∃ t, exec (.reclaimReadEnd r) s = .next t ∧ t.dir = s.dir.filter (fun x => decide (x.key ≠ k)) ∧
        t.win = s.win.raised .readFault ∧ (∃ b, t.eng = { on (p + m) with stalled := b } ∧ stalledAfter s [k] b) ∧
        (∃ b, t.arr.c = some { op := .readRecord v (p + m) .header, inProgress := b }) ∧
        (∀ j, j ≠ d.loc.sector → t.sector j = s.sector j) ∧
        (d.lines ≤ (s.sector d.loc.sector).live →
          (t.sector d.loc.sector).live + d.lines = (s.sector d.loc.sector).live ∧
            (t.sector d.loc.sector).dead = (s.sector d.loc.sector).dead + d.lines) ∧
        t.lw = s.lw ∧ t.tm = s.tm ∧ t.cu = s.cu ∧ t.store = s.store ∧ bytesKept s t nowhere) ∧
    (∀ k q m, validRecordAt p rr = none → ¬ blank → s.eng.attempts ≠ 0 → s.eng.firstRef = some (.entry k q m) →
      (∀ d, s.entry k = some d → d.seq ≠ q) → p + m < 256 →
      endsIn (.reclaimReadEnd r) s
        (walksOn { gone with win := s.win.raised .readFault } (on (p + m)) v) nowhere) ∧
    (∀ j : SectorIx, validRecordAt p rr = none → ¬ blank → s.eng.attempts ≠ 0 →
      s.eng.firstRef = some (.retireLoc j) → p + 1 < 256 →
      let faulted := { gone with win := s.win.raised .readFault }
      ((s.sector j).retireLoc = some l → j ≠ v → 1 ≤ (s.sector v).live →
        let x := { s.sector v with live := (s.sector v).live - 1, dead := (s.sector v).dead + 1 }
        let y := { s.sector j with retireLoc := none }
        endsIn (.reclaimReadEnd r) s
          (walksOn { faulted with sectors := (s.sectors.set j.val y j.isLt).set v.val x v.isLt } (on (p + 1)) v)
          nowhere) ∧
      ((s.sector j).retireLoc ≠ some l →
        endsIn (.reclaimReadEnd r) s (walksOn faulted (on (p + 1)) v) nowhere)) ∧
    (validRecordAt p rr = none → ¬ blank → s.eng.attempts ≠ 0 → s.eng.firstRef = none → p + 1 < 256 →
      endsIn (.reclaimReadEnd r) s (walksOn gone (on (p + 1)) v) nowhere))

/-- A copy is reported written at a place, the record area not yet walked to its end: copy count and copied lines
rise, the cursor passes the original and the READ behind it is placed. The entry that still carries the copy's
sequence moves to the copy, its lines with it, the stale-copy mark of a DELETED one set when it left a newer sector, and
STALLED cleared when it left a SEALED one; a DELETED entry of a higher sequence in an older sector takes the mark; every
other entry, and all of them for the copy of a COMMIT or a RECLAIM-END, stand. The RETIRE location that named the
original moves to the copy of a RETIRE, and the line with it. In POWER-HOLD and READ-ONLY the same is done, and the unit
then ends POWER-FAIL or READ-ONLY with its copy count (log 39). -/
def Obligations.CopyWritten : Prop :=
  ∀ (s : State) (sec : SectorIx) (line : Nat) (data : List Byte) (cur : InProgress) (x : Loc) (v : SectorIx) (q : Nat),
    lastLine s sec line data cur x → cur.stream = .reclaim → s.eng.st = .copying →
    s.eng.sector = some v → s.eng.cursor + cur.record.lines = q →
    let stored := fun ln => ln = lineNo sec line
    let k := cur.record.key
    let seq := cur.record.seq
    let data_ := cur.record.kind = .value ∨ cur.record.kind = .tombstone
    let counted := { cursorAt s.eng q with
      copyCount := s.eng.copyCount + 1, copiedLines := s.eng.copiedLines + cur.record.lines }
    let gone := { recordOver s sec line data with eng := counted }
    let goesOn := fun u : State =>
      (s.store.st = .mounted → q < 256 → endsIn (.lineProgramEnd .passed) s (walksOn u u.eng v) stored) ∧
        ∀ st, halted s st → unitEndsIn (.lineProgramEnd .passed) s u v st stored
    (cur.record.kind = .commit ∨ cur.record.kind = .reclaimEnd ∨
        (data_ ∧ ∀ d, s.entry k = some d → d.seq ≠ seq ∧
          (d.present = true ∨ d.seq < seq ∨ ¬ earlier s d.loc.sector x.sector)) →
      goesOn gone) ∧
    (∀ d, data_ → s.entry k = some d → d.seq = seq →
      ∃ dir sectors stalled stale,
        goesOn { gone with dir := dir, sectors := sectors, eng := { counted with stalled := stalled } } ∧
        stalledAfter s [k] stalled ∧
        dirFind dir k = some { d with loc := x, stale := stale } ∧
        (stale = true ↔ d.present = false ∧ earlier s x.sector d.loc.sector) ∧
        (∀ k', k' ≠ k → dirFind dir k' = s.entry k') ∧
        (∀ j : SectorIx, sectors.get j =
            { s.sector j with live := (sectors.get j).live, dead := (sectors.get j).dead } ∧
          (sectors.get j).live + (sectors.get j).dead = (s.sector j).live + (s.sector j).dead) ∧
        linesCounted s sectors (entryLines s k) (fun j => if x.sector = j then d.lines else 0)) ∧
    (∀ d, data_ → s.entry k = some d → d.present = false → seq < d.seq → earlier s d.loc.sector x.sector →
      ∃ dir, goesOn { gone with dir := dir } ∧
        dirFind dir k = some { d with stale := true } ∧ ∀ k', k' ≠ k → dirFind dir k' = s.entry k') ∧
    (∀ j : SectorIx, cur.record.kind = .retire → (s.sector j).st = .retired →
      (s.sector j).retireLoc = some { sector := v, line := s.eng.cursor } →
      (∀ i, (s.sector i).st = .retired → (s.sector i).retireLoc = some { sector := v, line := s.eng.cursor } → i = j) →
      j ≠ x.sector → j ≠ v → x.sector ≠ v → 1 ≤ (s.sector x.sector).dead → 1 ≤ (s.sector v).live →
      let named := { s.sector j with retireLoc := some x }
      let taken := { s.sector x.sector with
        live := (s.sector x.sector).live + 1, dead := (s.sector x.sector).dead - 1 }
      let given := { s.sector v with live := (s.sector v).live - 1, dead := (s.sector v).dead + 1 }
      goesOn
        { gone with
          sectors := ((s.sectors.set j.val named j.isLt).set x.sector.val taken x.sector.isLt).set v.val given v.isLt })

/-- A marker record of the engine is reported written. RECLAIM-BEGIN: the victim is RECLAIMING and its walk begins at
line 2. RECLAIM-END: the victim is ERASE-PENDING and, below the endurance limit, at once ERASING with its erase
placed; at the limit a RETIRE record with the next sequence number, under the pass's reservation, is offered, and with
the number refused the sector is RETIRED without a location and the store READ-ONLY. In POWER-HOLD and READ-ONLY the
unit ends there POWER-FAIL or READ-ONLY, its sector RECLAIMING or ERASE-PENDING (logs 39 and 40). RETIRE: the sector
it names is RETIRED with the record's place, whose line is live, SECTOR-RETIRED is raised, and the unit ends, OK for
the endurance limit and ARRAY-FAULT after a failed erase, POWER-FAIL in POWER-HOLD (log 24), with no lines freed; the
engine looks for work, and whoever waits for space repeats its request; with fewer than 3 usable sectors left the
store is READ-ONLY for RETIREMENT, a staging list that is not empty held. -/
def Obligations.MarkerWritten : Prop :=
  ∀ (s : State) (sec : SectorIx) (line : Nat) (data : List Byte) (cur : InProgress) (x : Loc) (v : SectorIx),
    lastLine s sec line data cur x → cur.stream = .reclaim → s.eng.sector = some v →
    let stored := fun ln => ln = lineNo sec line
    let gone := recordOver s sec line data
    (s.eng.st = .beginning →
      let u := { gone with
        sectors := s.sectors.set v.val { s.sector v with st := .reclaiming } v.isLt
        eng := { cursorAt s.eng 2 with st := .copying, copyCount := 0, copiedLines := 0 } }
      (s.store.st = .mounted → endsIn (.lineProgramEnd .passed) s (walksOn u u.eng v) stored) ∧
      (∀ st, halted s st → unitEndsIn (.lineProgramEnd .passed) s u v st stored)) ∧
    (s.eng.st = .ending →
      let y := { s.sector v with st := .erasePending, live := 0, dead := 0 }
      let u := { gone with sectors := s.sectors.set v.val y v.isLt }
      (s.store.st = .mounted → s.pins.pfailLow = false → (s.sector v).eraseCount < 100000 →
        let z := { s.sector v with st := .erasing, activation := 0, openingSeq := 0, live := 0, dead := 0 }
        endsIn (.lineProgramEnd .passed) s
          { gone with
            sectors := s.sectors.set v.val z v.isLt
            eng := { s.eng with st := .erasing }
            arr := (s.arr.ended .l).put .c (.erase v) } stored) ∧
      (s.store.st = .mounted → s.pins.pfailLow = false → 100000 ≤ (s.sector v).eraseCount → s.lw.stopped = false →
        retiresIn (.lineProgramEnd .passed) s u v .endurance stored) ∧
      (∀ st, halted s st → unitEndsIn (.lineProgramEnd .passed) s u v st stored)) ∧
    (s.eng.st = .retiring → v ≠ x.sector → 1 ≤ (s.sector x.sector).dead →
      let named := { s.sector v with st := .retired, live := 0, dead := 0, retireLoc := some x }
      let taken := { s.sector x.sector with
        live := (s.sector x.sector).live + 1, dead := (s.sector x.sector).dead - 1 }
      retirementEndsTo
        { gone with
          sectors := (s.sectors.set v.val named v.isLt).set x.sector.val taken x.sector.isLt
          win := s.win.raised .sectorRetired } v (retireStatus s)
        (fun y => unitEndIn (.lineProgramEnd .passed) s y stored))

/-- A running erase of slot C ends. Passed, every line of the sector reads blank, its erase count is one more and its
erase stamp, with the current generation and that count, is requested. Failed, ERASE-FAULT is raised, the sector is
ERASE-PENDING, and a RETIRE record naming it is offered, a unit without a reservation taking one of 18 lines where
there is room; with its sequence number refused the sector is RETIRED at once and the store READ-ONLY for SEQUENCE. In
READ-ONLY the stamp is refused and the sector ERASE-PENDING with the raised count, or, after a failed erase, the
RETIRE record is refused and the sector RETIRED without a location, and the unit ends READ-ONLY. A SUSPENDING erase
becomes SUSPENDED, with its running time and its suspension count as they stand. -/
def Obligations.EraseEndsAndSuspends : Prop :=
  (∀ (s : State) (v : SectorIx) (run : EraseRun), performs s .c (.erase v) → s.arr.erase = some run →
    run.slot = .c → run.cond = .running →
    let x := { s.sector v with eraseCount := (s.sector v).eraseCount + 1 }
    let y := { s.sector v with st := .erasePending, live := 0, dead := 0 }
    let freed := { s.arr.ended .c with erase := none }
    let erased := { s with flash := s.flash.endErase v, eng := { s.eng with st := .stamping }, arr := freed }
    let failed := { s with
      flash := s.flash.failErase v
      sectors := s.sectors.set v.val y v.isLt
      win := s.win.raised .eraseFault
      arr := freed }
    let within := fun ln => inSector v ln = true
    (∀ line i, line < 256 → i < 16 → erased.flash.byte (lineNo v line) i = 0xFF#8) ∧
    (s.writable →
      let u := { erased with
        sectors := s.sectors.set v.val x v.isLt
        arr := Sequencer.put freed .c
          (.program v 0 (eraseStampLine s.store.generation ((s.sector v).eraseCount + 1))) }
      (endsIn (.eraseEnd .passed) s u within ∧
        ∀ line i, line < 256 → i < 16 → u.grant.flash.byte (lineNo v line) i = 0xFF#8) ∧
      retiresIn (.eraseEnd .failed) s failed v .eraseFault nowhere) ∧
    (s.store.st = .readOnly → s.pins.pfailLow = false → s.lw.stopped = false →
      unitEndsIn (.eraseEnd .passed) s
        { erased with sectors := s.sectors.set v.val { x with st := .erasePending, live := 0, dead := 0 } v.isLt } v
        .readOnly within ∧
      (s.lw.seqCtr + 1 ≤ 0xFFFFFFFF →
        let u := { failed with
          eng := { s.eng with st := .retiring, cause := .eraseFault }, lw := { s.lw with seqCtr := s.lw.seqCtr + 1 } }
        unitEndsIn (.eraseEnd .failed) s (retiredIn u v none) v .readOnly nowhere))) ∧
  (∀ (s : State) (run : EraseRun), s.arr.erase = some run → run.cond = .suspending →
    let u := { s with arr := { s.arr with busy := none, erase := some { run with cond := .suspended } } }
    endsIn .eraseSuspended s u nowhere)

/-- The engine's erase stamp program ends, and with it the unit. Passed, the sector is BLANK and the result is OK with
the lines freed, 254 less those copied; failed, PROGRAM-FAULT is raised, the sector is ERASE-PENDING and the result
ARRAY-FAULT with no lines freed; in POWER-HOLD the result is POWER-FAIL either way (log 24). A RECLAIM command in flight
posts the result; the engine is IDLE, its reservation released, and STALLED is cleared when the sector is BLANK. In
MOUNTED the engine then looks for its next work, and a commit or a settings write that waits for space repeats its
request, in an order that is free (log 9): granted, it goes on with its first record. A commit that still has no room
waits on, the next unit being started for it, or ends NO-SPACE when there is none, whichever comes first. -/
def Obligations.EraseStampProgramEnd : Prop :=
  ∀ (s : State) (v : SectorIx) (data : List Byte) (verify : Verify), performs s .c (.program v 0 data) →
    s.eng.st = .stamping → s.eng.sector = some v →
    let st : Status :=
      if s.store.st = .powerHold then .powerFail else if verify = .passed then .ok else .arrayFault
    let freed := if verify = .passed then 254 - s.eng.copiedLines else 0
    let result : UnitResult := { status := st, sector := v, copyCount := s.eng.copyCount, linesFreed := freed }
    let x := if verify = .passed then
        { s.sector v with st := .blank, live := 0, dead := 0, generation := s.store.generation }
      else { s.sector v with st := .erasePending, live := 0, dead := 0 }
    let u := { programOver s .c v 0 data verify with
      sectors := s.sectors.set v.val x v.isLt
      lw := { s.lw with reclaimRes := none }
      win := if verify = .passed then s.win else s.win.raised .programFault
      eng := { Engine.reset with
        cause := s.eng.cause, stalled := s.eng.stalled && decide (verify = .failed), lastResult := some result } }
    let stored := fun ln => verify = .passed ∧ ln = lineNo v 0
    let ends := fun w : State =>
      unitEndIn (.eraseStampProgramEnd verify) s w stored ∧
      (∀ f : CommitFlight, s.store.st = .mounted → s.tm.commit = some f → f.phase = .waitingSpace →
        s.tm.settings = none → s.settings.autoReclaim = 1 → s.lw.commitRes = none → (∀ j, (s.sector j).mark = false) →
        w.freeLines < w.heldLines + f.amount + 272 →
        looksIn (.eraseStampProgramEnd verify) s { w with freeCount := s.freeCount + 1 } stored)
    (s.eng.owner = .automatic → ends u) ∧
    (∀ before tag after t, s.eng.owner = .command t → s.cu.flies before 0x41#8 tag after →
      ends
        { u with
          cu := s.cu.ended (before ++ after) (flightDone 0x41#8 tag st freed v.val s.eng.copyCount) }) ∧
    (verify = .passed → data.length = 16 → s.flash.wf = true → holdsLine u.grant v 0 data)

/-! ### Mount and format -/

/-- The Store Controller's READ or PROGRAM in slot M has ended, and its request with it. -/
def storeOver (s : State) : State :=
  { s with store := { s.store with req := none } }

/-- The Store Controller has placed a request in slot M. -/
def storeAsks (u : State) (purpose : MPurpose) (op : ArrayOp) : State :=
  { u with
    arr := u.arr.put .m op
    store := { u.store with req := some { purpose := purpose, abandoned := false } } }

/-- The entry that STAMPS gives a sector from its stamps, the current generation and the estimated erase count (R40,
R123). -/
def stampedEntry (generation estimate : Nat) (x : StampRead) : SectorEntry :=
  match x.erase with
  | none => { SectorEntry.reset with eraseCount := estimate }
  | some (g, n) =>
    let e := { SectorEntry.reset with eraseCount := n, generation := g }
    if g < generation then e
    else match x.opening with
      | .blank => { e with st := .blank }
      | .valid a q => { e with activation := a, openingSeq := q }
      | .invalid => e

/-- Whether stamps make a sector opened (R123). -/
def opens (generation : Nat) (x : StampRead) : Bool :=
  match x.erase, x.opening with
  | some (g, _), .valid _ _ => decide (generation ≤ g)
  | _, _ => false

/-- A sector that STAMPS found opened (R123). -/
abbrev openedIn (s : State) (i : SectorIx) : Prop :=
  opens s.store.generation (s.store.scan.stampOf i) = true

/-- A RETIRE record makes a sector RETIRED (R125). -/
abbrev retiredNow (s : State) (i : SectorIx) : Prop :=
  ∃ r ∈ s.store.scan.recs, r.kind = .retire ∧ r.operand = i.val ∧
    (¬ openedIn s i ∨ (s.sector i).openingSeq < r.seq)

/-- A sector whose records are left after R125. -/
abbrev keptNow (s : State) (i : SectorIx) : Prop :=
  openedIn s i ∧ ¬ retiredNow s i

/-- A record of a kind that names a sector and describes its present contents, in a sector of a kind (R126). -/
abbrev marked (s : State) (i : SectorIx) (r : ScanRec) (kind : RecKind) : Prop :=
  r.kind = kind ∧ r.operand = i.val ∧ (s.sector i).openingSeq < r.seq

/-- A RECLAIM-END makes a sector ERASE-PENDING (R126). -/
abbrev endedNow (s : State) (i : SectorIx) : Prop :=
  keptNow s i ∧ ∃ r ∈ s.store.scan.recs, keptNow s r.loc.sector ∧ marked s i r .reclaimEnd

/-- A sector that remains after R125 and R126. -/
abbrev remains (s : State) (i : SectorIx) : Prop :=
  keptNow s i ∧ ¬ endedNow s i

/-- A RECLAIM-BEGIN without a later RECLAIM-END makes a sector RECLAIMING (R126). -/
abbrev begunNow (s : State) (i : SectorIx) : Prop :=
  remains s i ∧ ∃ b ∈ s.store.scan.recs, remains s b.loc.sector ∧ marked s i b .reclaimBegin ∧
    ¬ ∃ e ∈ s.store.scan.recs, remains s e.loc.sector ∧ e.kind = .reclaimEnd ∧ e.operand = i.val ∧ b.seq < e.seq

/-- A VALUE or TOMBSTONE record of a sector that remains (R127). -/
abbrev dataNow (s : State) (r : ScanRec) : Prop :=
  (r.kind = .value ∨ r.kind = .tombstone) ∧ remains s r.loc.sector

/-- Such a record is committed: SOLO, or validated by a COMMIT record of a sector that remains (R14, R127). -/
abbrev committedNow (s : State) (r : ScanRec) : Prop :=
  dataNow s r ∧ (r.solo = true ∨ ∃ c ∈ s.store.scan.recs, c.kind = .commit ∧ remains s c.loc.sector ∧ c.txn = r.txn ∧
    r.seq < c.seq ∧ c.seq ≤ r.seq + c.operand)

/-- One record is taken before another: higher sequence, then newer sector, then higher line (R15, R125, R128). -/
abbrev takenBefore (s : State) (a b : ScanRec) : Prop :=
  b.seq < a.seq ∨ (a.seq = b.seq ∧ (earlier s b.loc.sector a.loc.sector ∨
    (a.loc.sector = b.loc.sector ∧ b.loc.line < a.loc.line)))

/-- The record BUILD takes for its key (R128). -/
abbrev chosenNow (s : State) (r : ScanRec) : Prop :=
  committedNow s r ∧ ∀ x ∈ s.store.scan.recs, committedNow s x → x.key = r.key → x = r ∨ takenBefore s r x

/-- An entry is the one a chosen record makes (R57, R128). -/
abbrev entryFrom (s : State) (r : ScanRec) (e : DirEntry) : Prop :=
  e.key = r.key ∧ e.present = decide (r.kind = .value) ∧ e.loc = r.loc ∧ e.lines = r.lines ∧ e.length = r.length ∧
    e.seq = r.seq ∧ (e.stale = true ↔ r.kind = .tombstone ∧ ∃ x ∈ s.store.scan.recs, committedNow s x ∧ x.key = r.key ∧
      x.seq < r.seq ∧ earlier s r.loc.sector x.loc.sector)

/-- A RETIRE record that can give a sector its location (R125). -/
abbrev namesRetired (s : State) (i : SectorIx) (r : ScanRec) : Prop :=
  r.kind = .retire ∧ r.operand = i.val ∧ keptNow s r.loc.sector

/-- Live lines of a sector: the lines of the entries there, and one for each RETIRE location there (R33). -/
def liveNow (dir : List DirEntry) (sectors : Vector SectorEntry 32) (i : SectorIx) : Nat :=
  ((dir.filter (fun e => decide (e.loc.sector = i))).map DirEntry.lines).sum +
    (allSectors.filter (fun j => decide ((sectors.get j).st = .retired) &&
      ((sectors.get j).retireLoc.map Loc.sector == some i))).length

/-- What RESOLVE, BUILD and LOAD find in a log. -/
structure MountBuild where
  /-- An entry for every key with a chosen record. -/
  found : List DirEntry
  /-- Of these, the directory's at most 1024. -/
  dir : List DirEntry
  sectors : Vector SectorEntry 32
  active : Option SectorIx
  /-- The highest sequence and activation number seen, and the transaction number of the highest sequence. -/
  seq : Nat
  act : Nat
  txn : Nat
  repair : Bool
  /-- The payload of the settings entry, of the known version. -/
  payload : Option (List Byte)

/-- What RESOLVE, BUILD and LOAD make of the scan and the classes that state `s` holds (R125–R130). -/
structure Builds (s : State) (b : MountBuild) : Prop where
  /-- The scan read every place once. -/
  distinct : (∀ x ∈ s.store.scan.recs, ∀ y ∈ s.store.scan.recs, x.loc = y.loc → x = y) ∧
    ∀ x ∈ s.store.scan.settings, ∀ y ∈ s.store.scan.settings, x.loc = y.loc → x = y
  /-- STAMPS left every sector BLANK or, opened ones included, at its reset state (R123; log 16). -/
  fresh : ∀ i, (s.sector i).st = .blank ∨ (s.sector i).st = .erasePending
  /-- One entry for each key, from its chosen record, in key order (R44, R128). -/
  found : dirSorted b.found = true ∧
    (∀ e ∈ b.found, ∃ r ∈ s.store.scan.recs, chosenNow s r ∧ entryFrom s r e) ∧
    ∀ r ∈ s.store.scan.recs, chosenNow s r → ∃ e ∈ b.found, entryFrom s r e
  /-- Above 1024 keys, the settings key first and then the lowest user keys (R59, R128). -/
  dir : b.dir = if b.found.length ≤ 1024 then b.found
    else if ∃ e ∈ b.found, e.key = 0xFF01#16 then
      (b.found.filter (fun e => decide (e.key ≠ 0xFF01#16))).take 1023 ++
        b.found.filter (fun e => decide (e.key = 0xFF01#16))
    else b.found.take 1024
  /-- RETIRED, with the location of the RETIRE record taken first, or without one (R125). -/
  retired : ∀ i, retiredNow s i →
    b.sectors.get i =
      { s.sector i with st := .retired, live := 0, dead := 0, retireLoc := (b.sectors.get i).retireLoc } ∧
    (((b.sectors.get i).retireLoc = none ∧ ∀ r ∈ s.store.scan.recs, ¬ namesRetired s i r) ∨
      ∃ r ∈ s.store.scan.recs, namesRetired s i r ∧ (b.sectors.get i).retireLoc = some r.loc ∧
        ∀ x ∈ s.store.scan.recs, namesRetired s i x → x = r ∨ takenBefore s r x)
  /-- ERASE-PENDING by a RECLAIM-END (R126). -/
  ended : ∀ i, endedNow s i → b.sectors.get i = { s.sector i with st := .erasePending, live := 0, dead := 0 }
  /-- The newest remaining sector that is not RECLAIMING (R129). -/
  active : (∀ k, b.active = some k → remains s k ∧ ¬ begunNow s k ∧
      ∀ j, remains s j → ¬ begunNow s j → j = k ∨ earlier s j k) ∧
    (b.active = none → ∀ j, remains s j → begunNow s j)
  /-- The states and lines of the sectors that remain (R129). -/
  remaining : ∀ i, remains s i →
    let live := liveNow b.dir b.sectors i
    let scanned := s.store.scan.appendOf i - 2
    (b.active = some i → b.sectors.get i = { s.sector i with st := .active, live := live, dead := scanned - live }) ∧
    (b.active ≠ some i → ¬ begunNow s i →
      b.sectors.get i = { s.sector i with st := .sealed, live := live, dead := 254 - live }) ∧
    (begunNow s i → b.sectors.get i = { s.sector i with st := .reclaiming, live := live, dead := 254 - live })
  /-- Every other sector is as STAMPS left it (R123). -/
  others : ∀ i, ¬ openedIn s i → ¬ retiredNow s i → b.sectors.get i = s.sector i
  /-- The highest sequence seen; an opening sequence has seen the number before it (R129). -/
  seq : (∀ r ∈ s.store.scan.recs, r.seq ≤ b.seq) ∧ (∀ i, openedIn s i → (s.sector i).openingSeq ≤ b.seq + 1) ∧
    (b.seq = 0 ∨ (∃ r ∈ s.store.scan.recs, r.seq = b.seq) ∨ ∃ i, openedIn s i ∧ (s.sector i).openingSeq = b.seq + 1)
  /-- The highest activation number (R129). -/
  act : (∀ i, openedIn s i → (s.sector i).activation ≤ b.act) ∧
    (b.act = 0 ∨ ∃ i, openedIn s i ∧ (s.sector i).activation = b.act)
  /-- The transaction number of the highest sequence that carries one (R129). -/
  txn : (b.txn = 0 ∧ ∀ r ∈ s.store.scan.recs, r.txn = 0) ∨
    ∃ r ∈ s.store.scan.recs, r.txn = b.txn ∧ b.txn ≠ 0 ∧
      ∀ x ∈ s.store.scan.recs, x.txn ≠ 0 → x.seq < r.seq ∨ (x.seq = r.seq ∧ x.txn = b.txn)
  /-- A repair: in STAMPS or RECORDS, a marker that is resolved, or an orphan (R126, R127, R131). -/
  repair : b.repair = true ↔ s.store.scan.repair = true ∨ (∃ i, endedNow s i) ∨ (∃ i, begunNow s i) ∨
    ∃ r ∈ s.store.scan.recs, dataNow s r ∧ ¬ committedNow s r
  /-- The payload kept for the settings entry, when it is of the known version (R124, R130; log 15). -/
  payload : (∀ bs, b.payload = some bs → knownVersion bs = true ∧
      ∃ e ∈ b.dir, e.key = 0xFF01#16 ∧ ∃ x ∈ s.store.scan.settings, x.loc = e.loc ∧ x.payload = bs) ∧
    (b.payload = none → ∀ e ∈ b.dir, e.key = 0xFF01#16 → ∀ x ∈ s.store.scan.settings, x.loc = e.loc →
      knownVersion x.payload = false)

/-- The state as BUILD and LOAD leave it, in OPEN (R129–R131). -/
def built (s : State) (b : MountBuild) : State :=
  { s with
    dir := b.dir
    sectors := b.sectors
    lw := { LogWriter.reset with
      point := b.active.map (fun k => { sector := k, line := s.store.scan.appendOf k })
      seqCtr := b.seq + 1
      actCtr := b.act + 1
      txnCtr := txnAfter b.txn }
    settings := match b.payload with
      | some bs => Settings.ofPayload bs
      | none => Settings.factory
    guards := match b.payload with
      | some bs => loadGuards bs s.guards
      | none => s.guards.map (fun g => if g.fixed then g else GuardSlot.cleared)
    store := { s.store with phase := .open_ } }

/-- The read-only cause BUILD sets: the first of R128 and R129 that holds. -/
def builtCause (b : MountBuild) : Cause :=
  if 1024 < b.found.length then .directory
  else if 29 < countIn b.sectors .retired then .retirement
  else if b.seq + 1 = 0xFFFFFFFF then .sequence
  else .none

/-- The mount's end in MOUNTED or, for a cause, in READ-ONLY (R131). -/
def mountOver (u : State) (cause : Cause) (repair : Bool) : State :=
  { u with
    win := if repair then u.win.raised .mountRepaired else u.win
    store := { u.store with
      st := if cause = .none then .mounted else .readOnly
      cause := cause
      result := if repair then .repaired else .clean
      mount := none
      scan := MountScan.empty
      dirValid := true } }

/-- What follows in one step once every record has been read, in a state `v` with all of them in its scan: RESOLVE,
BUILD, LOAD and OPEN. With an ACTIVE sector, or a cause, the mount ends, a MOUNT command in flight answering OK or
READ-ONLY with the result, the directory's entries and the BLANK sectors. Without either the open stamp of the
candidate, with the next activation number and the next sequence number, is placed; without a candidate the cause is
NO-SECTOR. -/
def resolvesIn (c : Instr) (s v : State) : Prop :=
  ∀ b : MountBuild, Builds v b →
    let u := built v b
    let cause := builtCause b
    let blanks := countIn b.sectors .blank
    let ends := fun cause : Cause =>
      let w := mountOver u cause b.repair
      (v.store.mount = some .automatic → concludesIn c s w nowhere) ∧
      (∀ before tag after, v.store.mount = some (.command tag) → v.cu.flies before 0x50#8 tag after →
        let w1 := { w with
          cu := v.cu.ended (before ++ after)
            (flightDone 0x50#8 tag (if cause = .none then .ok else .readOnly) (if b.repair then 2 else 1) b.dir.length
              blanks) }
        concludesIn c s w1 nowhere)
    (cause ≠ .none ∨ b.active ≠ none → ends cause) ∧
    (cause = .none → b.active = none → (∀ k, (b.sectors.get k).st ≠ .blank) → ends .noSector) ∧
    (∀ k, cause = .none → b.active = none → (b.sectors.get k).st = .blank →
      (∀ j, (b.sectors.get j).st = .blank → (b.sectors.get k).eraseCount < (b.sectors.get j).eraseCount ∨
        ((b.sectors.get k).eraseCount = (b.sectors.get j).eraseCount ∧ k ≤ j)) →
      endsIn c s
        (storeAsks
          { u with
            lw := { u.lw with actCtr := b.act + 2 }
            store := { u.store with cause := .none, scan := { v.store.scan with repair := b.repair } } }
          (.mountOpen k (b.act + 1) (b.seq + 1)) (.program k 1 (openStampLine (b.act + 1) (b.seq + 1)))) nowhere)

/-- The scan once a line of sector `i` has been judged for good: a blank line is passed over; a valid record is kept,
with the payload of a settings record unless the sector's is of a higher sequence, and its lines are passed over; any
other line is torn, a repair. The append point of the sector lies behind what has been written (R124). -/
abbrev judged (c c1 : MountScan) (i : SectorIx) (p : Nat) (rr : ReadResult) : Prop :=
  (isBlankLine rr.bytes = true ∧ c1 = { c with cursor := p + 1, attempts := 0 }) ∨
  (isBlankLine rr.bytes = false ∧ ∃ rec x, validRecordAt p rr = some rec ∧ x.kind = rec.kind ∧ x.solo = rec.solo ∧
    x.key = rec.key ∧ x.length = rec.length ∧ x.lines = rec.lines ∧ x.txn = rec.txn ∧ x.seq = rec.seq ∧
    x.operand = rec.operand ∧ x.loc = { sector := i, line := p } ∧
    c1 = { c with
      recs := c.recs ++ [x], cursor := p + rec.lines, attempts := 0, appendAt := c1.appendAt, settings := c1.settings } ∧
    c1.appendOf i = p + rec.lines ∧ (∀ j, j ≠ i → c1.appendOf j = c.appendOf j) ∧
    (rec.key ≠ 0xFF01#16 → c1.settings = c.settings) ∧
    (rec.key = 0xFF01#16 → (∀ x ∈ c.settings, x.loc.sector = i → x.seq ≤ rec.seq) → ∀ x, x ∈ c1.settings ↔
      x = { loc := { sector := i, line := p }, seq := rec.seq, payload := rec.payload } ∨
        (x ∈ c.settings ∧ x.loc.sector ≠ i))) ∨
  (isBlankLine rr.bytes = false ∧ validRecordAt p rr = none ∧ c.attempts ≠ 0 ∧
    c1 = { c with cursor := p + 1, attempts := 0, repair := true, appendAt := c1.appendAt } ∧
    c1.appendOf i = p + 1 ∧ ∀ j, j ≠ i → c1.appendOf j = c.appendOf j)

/-- A READ of the mount ends. The stamps of a sector join the scan and the next sector's are read. After the last,
with a valid erase stamp among the 32, the generation is the highest, every sector has its class, its erase count or
the highest one as an estimate, which raises MOUNT-REPAIRED, and its numbers (an opened one's state, ERASE-PENDING
until BUILD, is read by inference, log 16), a sector classed ERASE-PENDING is a repair, and the opened sectors are
read from line 2 in activation order; with none valid the mount, automatic or of a command, ends UNFORMATTED with
factory settings and no guard that is not fixed, and by inference without MOUNT-REPAIRED (log 37). In RECORDS a blank
line is passed over, a valid record joins the scan and its lines are passed over, an invalid line is read again, and
at its second failure it counts torn: a repair. The READ at the cursor follows, past line 255 that of the next
sector's line 2. What follows the last one is `MountBuilds`. -/
def Obligations.MountReadEnds : Prop :=
  (∀ (s : State) (r : ReadOutcome) (i : SectorIx) (bs : List Byte) (n : Nat),
    performs s .m (.readLines i 0 2) → s.store.req = some { purpose := .mountStamp i, abandoned := false } →
    s.store.st = .mounting → returned r (s.readSpan (lineNo i 0) 2).1 = bs →
    (s.readSpan (lineNo i 0) 2).2.freeCount = n →
    let gone := storeOver (readOver s n .m)
    let read := s.store.scan.stamps ++ [{ erase := validEraseStamp (bs.take 16), opening := judgeOpenStamp (bs.drop 16) }]
    (∀ j : SectorIx, j.val = i.val + 1 →
      endsIn (.mountStampReadEnd r) s (storeAsks
        { gone with store := { gone.store with scan := { s.store.scan with stamps := read } } }
        (.mountStamp j) (.readLines j 0 2)) nowhere) ∧
    (∀ (generation estimate : Nat) (sectors : Vector SectorEntry 32) (j : SectorIx) (more : List SectorIx)
      (repair lost : Bool), i.val = 31 → read.length = 32 → 1 ≤ generation →
      (∃ x ∈ read, x.erase.map Prod.fst = some generation) → (∃ x ∈ read, x.erase.map Prod.snd = some estimate) →
      (∀ x ∈ read, ∀ y, x.erase = some y → y.1 ≤ generation ∧ y.2 ≤ estimate) →
      (∀ k : SectorIx, ∀ x, read[k.val]? = some x → sectors.get k = stampedEntry generation estimate x) →
      (lost = true ↔ ∃ x ∈ read, x.erase = none) →
      (repair = true ↔ ∃ x ∈ read, (stampedEntry generation estimate x).st = .erasePending ∧ opens generation x = false) →
      let u := { gone with
        sectors := sectors
        win := if lost then s.win.raised .mountRepaired else s.win
        store := { gone.store with
          generation := generation, phase := .records
          scan := { s.store.scan with
            stamps := read, toScan := j :: more, cursor := 2, attempts := 0, repair := repair } } }
      (j :: more).Pairwise (fun a b => earlier u a b) → (∀ k, k ∈ j :: more ↔ openedIn u k) →
      endsIn (.mountStampReadEnd r) s (storeAsks u .mountRecord (.readRecord j 2 .header)) nowhere) ∧
    (i.val = 31 → (∀ x ∈ s.store.scan.stamps, x.erase = none) → validEraseStamp (bs.take 16) = none →
      let u := { gone with
        dir := []
        sectors := Vector.replicate 32 SectorEntry.reset
        settings := Settings.factory
        guards := s.guards.map (fun g => if g.fixed then g else GuardSlot.cleared)
        store := { gone.store with
          st := .unmounted, result := .unformatted, generation := 0, mount := none, scan := MountScan.empty
          dirValid := false } }
      (s.store.mount = some .automatic → endsIn (.mountStampReadEnd r) s u nowhere) ∧
      (∀ before tag after, s.store.mount = some (.command tag) → s.cu.flies before 0x50#8 tag after →
        endsIn (.mountStampReadEnd r) s
          { u with cu := s.cu.ended (before ++ after) (flightDone 0x50#8 tag .unformatted 3 0 0) } nowhere))) ∧
  (∀ (s : State) (r : ReadOutcome) (i : SectorIx) (p : Nat) (len : ReadLen) (rr : ReadResult) (n : Nat)
    (more : List SectorIx), performs s .m (.readRecord i p len) →
    s.store.req = some { purpose := .mountRecord, abandoned := false } → s.store.st = .mounting →
    s.store.scan.toScan = i :: more → s.store.scan.cursor = p → (s.readRecord i p len r).1 = rr →
    (s.readRecord i p len r).2.freeCount = n →
    let c := s.store.scan
    let gone := storeOver (readOver s n .m)
    let goesOn := fun (c1 : MountScan) (j : SectorIx) => endsIn (.mountRecordReadEnd r) s
      (storeAsks { gone with store := { gone.store with scan := c1 } } .mountRecord (.readRecord j c1.cursor .header))
      nowhere
    (isBlankLine rr.bytes = false → validRecordAt p rr = none → c.attempts = 0 → p < 256 →
      goesOn { c with attempts := 1 } i) ∧
    (isBlankLine rr.bytes = true ∨ validRecordAt p rr ≠ none ∨ c.attempts ≠ 0 →
      ∃ c1, judged c c1 i p rr ∧ (c1.cursor < 256 → goesOn c1 i) ∧
        ∀ j rest, more = j :: rest → 256 ≤ c1.cursor → goesOn { c1 with toScan := more, cursor := 2, attempts := 0 } j))

/-- The last READ of the mount ends: the one with which the last opened sector is read past line 255, or that of the
stamps of sector 31 when no sector is opened. RESOLVE, BUILD, LOAD and OPEN follow in the same step. A RETIRE record
above a sector's opening sequence retires it, a RECLAIM-END makes it ERASE-PENDING, a RECLAIM-BEGIN without one
RECLAIMING; a record that is not SOLO counts when a COMMIT of a remaining sector covers it. Each key takes the
committed record of the highest sequence, the sectors their states, live and dead lines, the counters one more than
the highest number seen, settings and guards the payload of the settings entry or, without one, their defaults; and
the mount ends, or its open stamp is placed. Read by inference, not from the plain words: what an opened sector's
entry is before BUILD (log 16), that the location of a RETIRE stands whatever R126 does (log 21), and that ENDs are
resolved before BEGINs (log 22); the model's own choice: a sector that R126 makes ERASE-PENDING keeps its activation
number (log 32), and a saved slot image in use with mode 0 clears its slot (log 42). That a settings payload shorter
than 52 bytes counts as another version is inference too (log 15). -/
def Obligations.MountBuilds : Prop :=
  (∀ (s : State) (r : ReadOutcome) (i : SectorIx) (p : Nat) (len : ReadLen) (rr : ReadResult) (n : Nat),
    performs s .m (.readRecord i p len) → s.store.req = some { purpose := .mountRecord, abandoned := false } →
    s.store.st = .mounting → s.pins.pfailLow = false → s.store.scan.toScan = [i] → s.store.scan.cursor = p →
    (s.readRecord i p len r).1 = rr → (s.readRecord i p len r).2.freeCount = n →
    isBlankLine rr.bytes = true ∨ validRecordAt p rr ≠ none ∨ s.store.scan.attempts ≠ 0 →
    let gone := storeOver (readOver s n .m)
    ∃ c1, judged s.store.scan c1 i p rr ∧ (256 ≤ c1.cursor →
      resolvesIn (.mountRecordReadEnd r) s
        { gone with store := { gone.store with scan := { c1 with toScan := [], cursor := 2, attempts := 0 } } })) ∧
  (∀ (s : State) (r : ReadOutcome) (i : SectorIx) (bs : List Byte) (n : Nat) (generation estimate : Nat)
    (sectors : Vector SectorEntry 32) (repair lost : Bool),
    performs s .m (.readLines i 0 2) → s.store.req = some { purpose := .mountStamp i, abandoned := false } →
    s.store.st = .mounting → s.pins.pfailLow = false → returned r (s.readSpan (lineNo i 0) 2).1 = bs →
    (s.readSpan (lineNo i 0) 2).2.freeCount = n → i.val = 31 →
    let gone := storeOver (readOver s n .m)
    let read := s.store.scan.stamps ++ [{ erase := validEraseStamp (bs.take 16), opening := judgeOpenStamp (bs.drop 16) }]
    read.length = 32 → 1 ≤ generation →
    (∃ x ∈ read, x.erase.map Prod.fst = some generation) → (∃ x ∈ read, x.erase.map Prod.snd = some estimate) →
    (∀ x ∈ read, ∀ y, x.erase = some y → y.1 ≤ generation ∧ y.2 ≤ estimate) →
    (∀ k : SectorIx, ∀ x, read[k.val]? = some x → sectors.get k = stampedEntry generation estimate x) →
    (lost = true ↔ ∃ x ∈ read, x.erase = none) →
    (repair = true ↔ ∃ x ∈ read, (stampedEntry generation estimate x).st = .erasePending ∧ opens generation x = false) →
    (∀ x ∈ read, opens generation x = false) →
    resolvesIn (.mountStampReadEnd r) s
      { gone with
        sectors := sectors
        win := if lost then s.win.raised .mountRepaired else s.win
        store := { gone.store with
          generation := generation, phase := .records
          scan := { s.store.scan with
            stamps := read, toScan := [], cursor := 2, attempts := 0, repair := repair } } })

/-- Of the BLANK sectors but for `o`, the one with the lowest erase count, of equals the lowest index (R32). -/
abbrev bestBlankBut (s : State) (o k : SectorIx) : Prop :=
  k ≠ o ∧ (s.sector k).st = .blank ∧
    ∀ j, j ≠ o → (s.sector j).st = .blank → (s.sector k).eraseCount < (s.sector j).eraseCount ∨
      ((s.sector k).eraseCount = (s.sector j).eraseCount ∧ k ≤ j)

/-- An opened sector's entry (R28). -/
def openedEntry (x : SectorEntry) (a q : Nat) : SectorEntry :=
  { x with st := .active, activation := a, openingSeq := q, live := 0, dead := 0 }

/-- An entry that has become ERASE-PENDING (R36). -/
def pendingEntry (x : SectorEntry) : SectorEntry :=
  { x with st := .erasePending, live := 0, dead := 0 }

/-- The mount's open stamp program ends. Passed, its sector is ACTIVE with the append point at line 2 and the store is
MOUNTED, CLEAN or, when a repair was found, REPAIRED with MOUNT-REPAIRED raised; a MOUNT command completes OK with the
result, the directory's entries and the BLANK sectors. Failed, PROGRAM-FAULT is raised, the sector is ERASE-PENDING and
the next BLANK sector is opened; without one the store is READ-ONLY for want of a sector. -/
def Obligations.MountOpenStampEnd : Prop :=
  ∀ (s : State) (k : SectorIx) (a q : Nat) (data : List Byte), performs s .m (.program k 1 data) →
    s.store.req = some { purpose := .mountOpen k a q, abandoned := false } → s.store.st = .mounting →
    s.pins.pfailLow = false → s.store.cause = .none →
    let gone := fun v : Verify => storeOver (programOver s .m k 1 data v)
    let window := fun w : Window => if s.store.scan.repair then w.raised .mountRepaired else w
    let result : MountResult := if s.store.scan.repair then .repaired else .clean
    let code := if s.store.scan.repair then 2 else 1
    let done := fun (u : State) (st : StoreState) (cause : Cause) => { u with
      win := window u.win
      store := { u.store with
        st := st, cause := cause, result := result, mount := none, scan := MountScan.empty, dirValid := true } }
    (let sectors := s.sectors.set k.val (openedEntry (s.sector k) a q) k.isLt
      let u := done { gone .passed with
        sectors := sectors, lw := { s.lw with point := some { sector := k, line := 2 } } } .mounted .none
      let stored := fun ln => ln = lineNo k 1
      (s.store.mount = some .automatic → concludesIn (.mountOpenStampEnd .passed) s u stored) ∧
      (∀ before tag after, s.store.mount = some (.command tag) → s.cu.flies before 0x50#8 tag after →
        let u1 := { u with
          cu := s.cu.ended (before ++ after)
            (flightDone 0x50#8 tag .ok code s.dir.length (countIn sectors .blank)) }
        concludesIn (.mountOpenStampEnd .passed) s u1 stored)) ∧
    (let sectors := s.sectors.set k.val (pendingEntry (s.sector k)) k.isLt
      let u := { gone .failed with sectors := sectors, win := s.win.raised .programFault }
      (∀ j, bestBlankBut s k j →
        endsIn (.mountOpenStampEnd .failed) s
          (storeAsks { u with lw := { s.lw with actCtr := s.lw.actCtr + 1 } } (.mountOpen j s.lw.actCtr s.lw.seqCtr)
            (.program j 1 (openStampLine s.lw.actCtr s.lw.seqCtr))) nowhere) ∧
      ((∀ j, j ≠ k → (s.sector j).st ≠ .blank) →
        (s.store.mount = some .automatic →
          endsIn (.mountOpenStampEnd .failed) s (done u .readOnly .noSector) nowhere) ∧
        (∀ before tag after, s.store.mount = some (.command tag) → s.cu.flies before 0x50#8 tag after →
          endsIn (.mountOpenStampEnd .failed) s
            { done u .readOnly .noSector with
              cu := s.cu.ended (before ++ after)
                (flightDone 0x50#8 tag .readOnly code s.dir.length 0) } nowhere)))

/-- FORMAT takes its next sector, below the endurance limit: the sector is ERASING and its erase is placed (R135). -/
def formatErases (u : State) (f : FormatFlight) (k : SectorIx) (todo : List SectorIx) : State :=
  let x := { u.sector k with st := .erasing, activation := 0, openingSeq := 0, live := 0, dead := 0 }
  storeAsks
    { u with
      sectors := u.sectors.set k.val x k.isLt
      store := { u.store with format := some { f with step := .erasing k todo } } }
    (.formatErase k) (.erase k)

/-- A FORMAT in progress, not abandoned, with a request of its own in slot M and nothing that bars it. -/
abbrev formats (s : State) (f : FormatFlight) (purpose : MPurpose) : Prop :=
  s.store.st = .formatting ∧ s.pins.pfailLow = false ∧ s.store.format = some f ∧
    s.store.req = some { purpose := purpose, abandoned := false }

/-- A format that ends with fewer than 3 BLANK sectors: the listed sectors are RETIRED without a location,
SECTOR-RETIRED is raised for them, the counters are 0, the store is UNMOUNTED, and the completion is ARRAY-FAULT
(R136). -/
def formatFewer (u : State) (f : FormatFlight) (inFlight : List (Byte × Byte)) (tag : Byte) : State :=
  let sectors := Vector.ofFn (fun j => if j ∈ f.toRetire then
      { u.sector j with st := .retired, live := 0, dead := 0, retireLoc := none }
    else u.sector j)
  { u with
    sectors := sectors
    lw := LogWriter.reset
    win := if f.toRetire = [] then u.win else u.win.raised .sectorRetired
    store := { u.store with st := .unmounted, format := none, dirValid := false }
    cu := u.cu.ended inFlight
      (flightDone 0x51#8 tag .arrayFault f.generation (countIn sectors .blank) (countIn sectors .retired)) }

/-- FORMAT turns to the sectors `todo`: those at the endurance limit become ERASE-PENDING and listed for retirement,
and the first below it is erased. After the last, with 3 BLANK sectors or more, the counters are set to 1 and the
candidate's open stamp is placed; with fewer the format ends (R135, R136). -/
abbrev formatTakes (c : Instr) (s u : State) (f : FormatFlight) (todo : List SectorIx) (stored : Nat → Prop) : Prop :=
  ∀ worn rest : List SectorIx, todo = worn ++ rest → (∀ j ∈ worn, 100000 ≤ (u.sector j).eraseCount) →
    let u1 := { u with
      sectors := Vector.ofFn (fun j => if j ∈ worn then pendingEntry (u.sector j) else u.sector j) }
    let f1 := { f with toRetire :=
      if worn = [] then f.toRetire else allSectors.filter (fun j => decide (j ∈ f.toRetire ∨ j ∈ worn)) }
    (∀ k more, rest = k :: more → (u.sector k).eraseCount < 100000 → endsIn c s (formatErases u1 f1 k more) stored) ∧
    (∀ k, rest = [] → 3 ≤ countIn u1.sectors .blank → State.candidate u1 = some k →
      let lw := { u.lw with seqCtr := 1, actCtr := 2, txnCtr := 1 }
      endsIn c s
        (storeAsks
          { u1 with lw := lw, store := { u.store with format := some { f1 with step := .opening k } } }
          (.formatOpen k 1 1) (.program k 1 (openStampLine 1 1))) stored) ∧
    (∀ before tag after, rest = [] → countIn u1.sectors .blank < 3 → u.cu.flies before 0x51#8 tag after →
      endsIn c s (formatFewer u1 f1 (before ++ after) tag) stored)

/-- The READs, erases and erase stamps of FORMAT. A valid stamp raises its sector's count to at least its own, and
line 0 of the next sector is read; after sector 31 the sectors are taken one at a time, BLANK ones before others. A
passed erase raises the count by 1 and its stamp, with the new generation, is placed; a failed one raises ERASE-FAULT
and lists the sector for retirement. A passed stamp leaves the sector BLANK in the new generation, a failed one raises
PROGRAM-FAULT and leaves it ERASE-PENDING; then the next sectors are taken: those at the endurance limit are listed,
not erased. After the last, with 3 BLANK sectors or more, the counters are set to 1 and the candidate's open stamp is
placed; with fewer the listed sectors are RETIRED and the format ends ARRAY-FAULT in UNMOUNTED. That a sector's
activation number and opening sequence become 0 as its erase is placed is read by inference from R93, not stated of
FORMAT (log 31). -/
def Obligations.FormatReadsErasesStamps : Prop :=
  (∀ (s : State) (r : ReadOutcome) (i : SectorIx) (f : FormatFlight) (bs : List Byte) (n : Nat) (x : SectorEntry),
    performs s .m (.readLines i 0 1) → formats s f (.formatRead i) →
    returned r (s.readSpan (lineNo i 0) 1).1 = bs → (s.readSpan (lineNo i 0) 1).2.freeCount = n →
    x = { s.sector i with eraseCount := match validEraseStamp bs with
      | some (_, m) => max m (s.sector i).eraseCount
      | none => (s.sector i).eraseCount } →
    let gone := { storeOver (readOver s n .m) with sectors := s.sectors.set i.val x i.isLt }
    (∀ j : SectorIx, j.val = i.val + 1 → endsIn (.formatStampReadEnd r) s
      (storeAsks { gone with store := { gone.store with format := some { f with step := .reading j } } }
        (.formatRead j) (.readLines j 0 1)) nowhere) ∧
    (i.val = 31 → formatTakes (.formatStampReadEnd r) s gone f
      (allSectors.filter (fun j => decide ((s.sector j).st = .blank)) ++
        allSectors.filter (fun j => decide ((s.sector j).st ≠ .blank))) nowhere)) ∧
  (∀ (s : State) (i : SectorIx) (f : FormatFlight) (todo : List SectorIx) (run : EraseRun),
    performs s .m (.erase i) → formats s f (.formatErase i) → f.step = .erasing i todo → s.arr.erase = some run →
    run.slot = .m → run.cond = .running →
    let gone := fun fl : Flash => storeOver
      { s with flash := fl, arr := { s.arr.ended .m with erase := none } }
    (let x := { s.sector i with eraseCount := (s.sector i).eraseCount + 1 }
      let u := gone (s.flash.endErase i)
      endsIn (.formatEraseEnd .passed) s
        (storeAsks
          { u with
            sectors := s.sectors.set i.val x i.isLt
            store := { u.store with format := some { f with step := .stamping i todo } } }
          (.formatStamp i) (.program i 0 (eraseStampLine f.generation ((s.sector i).eraseCount + 1))))
        (fun ln => inSector i ln = true)) ∧
    (let u := { gone (s.flash.failErase i) with
        win := s.win.raised .eraseFault
        sectors := s.sectors.set i.val (pendingEntry (s.sector i)) i.isLt }
      let listed := allSectors.filter (fun j => f.toRetire.contains j || decide (j = i))
      formatTakes (.formatEraseEnd .failed) s u { f with toRetire := listed } todo nowhere)) ∧
  (∀ (s : State) (i : SectorIx) (f : FormatFlight) (todo : List SectorIx) (data : List Byte) (v : Verify),
    performs s .m (.program i 0 data) → formats s f (.formatStamp i) → f.step = .stamping i todo →
    let x := if v = .passed then
        { s.sector i with st := .blank, live := 0, dead := 0, generation := f.generation }
      else pendingEntry (s.sector i)
    let u := { storeOver (programOver s .m i 0 data v) with
      sectors := s.sectors.set i.val x i.isLt, win := if v = .passed then s.win else s.win.raised .programFault }
    formatTakes (.formatStampProgramEnd v) s u f todo (fun ln => v = .passed ∧ ln = lineNo i 0))

/-- FORMAT ends in MOUNTED: CLEAN, the directory valid, and the completion OK with the generation, the BLANK and the
retired count (R136). -/
def formatMounted (u : State) (f : FormatFlight) (inFlight : List (Byte × Byte)) (tag : Byte) : State :=
  { u with
    store := { u.store with st := .mounted, result := .clean, format := none, dirValid := true }
    cu := u.cu.ended inFlight (flightDone 0x51#8 tag .ok f.generation (countIn u.sectors .blank)
      (countIn u.sectors .retired)) }

/-- FORMAT requests the RETIRE record of the next listed sector at the append point (R136). -/
def formatRetires (u : State) (w : LogWriter) (f : FormatFlight) (i : SectorIx) (todo : List SectorIx)
    (p : AppendPoint) : State :=
  let x := { u.sector p.sector with dead := (u.sector p.sector).dead + 1 }
  let lw := { w with seqCtr := w.seqCtr + 1, point := some { p with line := p.line + 1 } }
  storeAsks
    { u with
      lw := lw
      sectors := u.sectors.set p.sector.val x p.sector.isLt
      store := { u.store with format := some { f with step := .retiring i todo } } }
    (.formatRetire i) (.program p.sector p.line ((retireRecord i w.seqCtr).lineData 0))

/-- FORMAT's open stamp and its RETIRE records. The passed stamp makes its sector ACTIVE with the append point at line
2, and the first listed sector's RETIRE record follows; a failed one raises PROGRAM-FAULT, leaves the sector
ERASE-PENDING, and the next BLANK sector is opened; with none left the format ends as one with fewer than 3 BLANK
sectors does, by inference in the counters (log 23). The end of a RETIRE record's program retires the sector it names,
at the record's line when it passed and without a location, PROGRAM-FAULT raised, when it failed; SECTOR-RETIRED is
raised, and the next record follows. With none left the format ends in MOUNTED. -/
def Obligations.FormatOpensAndRetires : Prop :=
  (∀ (s : State) (f : FormatFlight) (k : SectorIx) (a q : Nat) (data : List Byte),
    performs s .m (.program k 1 data) → formats s f (.formatOpen k a q) →
    let gone := fun v : Verify => storeOver (programOver s .m k 1 data v)
    (let lw := { s.lw with point := some { sector := k, line := 2 } }
      let u := { gone .passed with
        lw := lw, sectors := s.sectors.set k.val (openedEntry (s.sector k) a q) k.isLt }
      let stored := fun ln => ln = lineNo k 1
      (∀ before tag after, f.toRetire = [] → s.cu.flies before 0x51#8 tag after →
        concludesIn (.formatOpenStampEnd .passed) s (formatMounted u f (before ++ after) tag) stored) ∧
      (∀ i todo, f.toRetire = i :: todo →
        endsIn (.formatOpenStampEnd .passed) s (formatRetires u lw f i todo { sector := k, line := 2 }) stored)) ∧
    (∀ j, bestBlankBut s k j →
      let u := { gone .failed with
        lw := { s.lw with actCtr := s.lw.actCtr + 1 }
        win := s.win.raised .programFault
        sectors := s.sectors.set k.val (pendingEntry (s.sector k)) k.isLt
        store := { (gone .failed).store with format := some { f with step := .opening j } } }
      endsIn (.formatOpenStampEnd .failed) s
        (storeAsks u (.formatOpen j s.lw.actCtr s.lw.seqCtr)
          (.program j 1 (openStampLine s.lw.actCtr s.lw.seqCtr))) nowhere) ∧
    (∀ before tag after, (∀ j, j ≠ k → (s.sector j).st ≠ .blank) → s.cu.flies before 0x51#8 tag after →
      let u := { gone .failed with
        win := s.win.raised .programFault
        sectors := s.sectors.set k.val (pendingEntry (s.sector k)) k.isLt }
      endsIn (.formatOpenStampEnd .failed) s (formatFewer u f (before ++ after) tag) nowhere)) ∧
  (∀ (s : State) (f : FormatFlight) (i k : SectorIx) (line : Nat) (data : List Byte) (todo : List SectorIx)
    (p : AppendPoint), performs s .m (.program k line data) → formats s f (.formatRetire i) →
    f.step = .retiring i todo → s.lw.point = some p → i ≠ k → 1 ≤ (s.sector k).dead →
    let named := fun loc : Option Loc => { s.sector i with st := .retired, live := 0, dead := 0, retireLoc := loc }
    let holder := { s.sector k with live := (s.sector k).live + 1, dead := (s.sector k).dead - 1 }
    let passed := { storeOver (programOver s .m k line data .passed) with
      win := s.win.raised .sectorRetired
      sectors := (s.sectors.set i.val (named (some { sector := k, line := line })) i.isLt).set k.val holder k.isLt }
    let failed := { storeOver (programOver s .m k line data .failed) with
      win := (s.win.raised .programFault).raised .sectorRetired
      sectors := s.sectors.set i.val (named none) i.isLt }
    let stored := fun ln => ln = lineNo k line
    (∀ j rest, todo = j :: rest →
      endsIn (.formatRetireProgramEnd .passed) s (formatRetires passed s.lw f j rest p) stored ∧
      endsIn (.formatRetireProgramEnd .failed) s (formatRetires failed s.lw f j rest p) nowhere) ∧
    (∀ before tag after, todo = [] → s.cu.flies before 0x51#8 tag after →
      concludesIn (.formatRetireProgramEnd .passed) s (formatMounted passed f (before ++ after) tag) stored ∧
      concludesIn (.formatRetireProgramEnd .failed) s (formatMounted failed f (before ++ after) tag) nowhere))
end

