-- ==== Sys2Proof/Laws/Flash.lean ====
section
/-! SUPPORT. The flash array: reading after writing, and that every operation keeps the canonical form. -/

namespace Sys2Proof.Machine

set_option Elab.async false

/-! ### Bytes -/

theorem cellGet_above (m : List Host.Cell) (a : Nat) (h : m.all (fun c => decide (a < c.1)) = true) :
    cellGet m a = Config.blankByte := by
  induction m with
  | nil => rfl
  | cons c rest ih =>
    obtain ⟨k, v⟩ := c
    simp only [List.all_cons, Bool.and_eq_true, decide_eq_true_eq] at h
    rw [cellGet, if_neg (by omega)]
    exact ih h.2

theorem cellGet_cellSet_other (m : List Host.Cell) (a b : Nat) (v : Byte) (h : b ≠ a) :
    cellGet (cellSet m a v) b = cellGet m b := by
  induction m with
  | nil => by_cases hv : v = Config.blankByte <;> simp [cellSet, cellGet, hv, Ne.symm h]
  | cons c rest ih =>
    obtain ⟨k, w⟩ := c
    rw [cellSet]
    split
    · simp only [cellGet, ih]
    · split
      · rename_i hk
        have hkb : k ≠ b := fun e => h (by omega)
        split <;> simp [cellGet, hkb, Ne.symm h]
      · split
        · rfl
        · simp [cellGet, Ne.symm h]

theorem cellGet_cellSet_same (m : List Host.Cell) (a : Nat) (v : Byte) (hm : cellsWf m = true) :
    cellGet (cellSet m a v) a = v := by
  induction m with
  | nil => by_cases hv : v = Config.blankByte <;> simp [cellSet, cellGet, hv]
  | cons c rest ih =>
    obtain ⟨k, w⟩ := c
    simp only [cellsWf, Bool.and_eq_true, decide_eq_true_eq] at hm
    rw [cellSet]
    split
    · rename_i hk
      rw [cellGet, if_neg (by omega)]
      exact ih hm.2
    · split
      · rename_i hk
        split
        · rename_i hv
          rw [hv]
          exact cellGet_above rest a (by rw [← hk]; exact hm.1.2)
        · simp [cellGet]
      · rename_i hka hke
        split
        · rename_i hv
          rw [hv]
          apply cellGet_above
          simp only [List.all_cons, Bool.and_eq_true, decide_eq_true_eq]
          refine ⟨by omega, ?_⟩
          rw [List.all_eq_true]
          intro c hc
          have := List.all_eq_true.mp hm.1.2 c hc
          simp only [decide_eq_true_eq] at this ⊢
          omega
        · simp [cellGet]

theorem cellSet_above (m : List Host.Cell) (k a : Nat) (v : Byte) (hk : k < a)
    (hm : m.all (fun c => decide (k < c.1)) = true) : (cellSet m a v).all (fun c => decide (k < c.1)) = true := by
  induction m with
  | nil => by_cases hv : v = Config.blankByte <;> simp [cellSet, hv, hk]
  | cons c rest ih =>
    obtain ⟨j, w⟩ := c
    simp only [List.all_cons, Bool.and_eq_true, decide_eq_true_eq] at hm
    rw [cellSet]
    split
    · simp [hm.1, ih hm.2]
    · split
      · split
        · exact hm.2
        · simp [hk, hm.2]
      · split
        · simp [hm.1, hm.2]
        · simp [hk, hm.1, hm.2]

/-- Storing a byte keeps the canonical form. -/
theorem cellSet_wf (m : List Host.Cell) (a : Nat) (v : Byte) (ha : a < arrayBytes) (hm : cellsWf m = true) :
    cellsWf (cellSet m a v) = true := by
  induction m with
  | nil => by_cases hv : v = Config.blankByte <;> simp [cellSet, cellsWf, hv, ha]
  | cons c rest ih =>
    obtain ⟨k, w⟩ := c
    have hm' := hm
    simp only [cellsWf, Bool.and_eq_true, decide_eq_true_eq] at hm
    obtain ⟨⟨⟨hk, hw⟩, hall⟩, hrest⟩ := hm
    rw [cellSet]
    split
    · rename_i hlt
      simp only [cellsWf, Bool.and_eq_true, decide_eq_true_eq]
      exact ⟨⟨⟨hk, hw⟩, cellSet_above rest k a v hlt hall⟩, ih hrest⟩
    · split
      · rename_i hke
        split
        · exact hrest
        · rename_i hv
          simp only [cellsWf, Bool.and_eq_true, decide_eq_true_eq]
          exact ⟨⟨⟨ha, hv⟩, by rw [← hke]; exact hall⟩, hrest⟩
      · rename_i hka hke
        split
        · exact hm'
        · rename_i hv
          rw [cellsWf]
          simp only [Bool.and_eq_true, decide_eq_true_eq, List.all_cons]
          refine ⟨⟨⟨ha, hv⟩, by omega, ?_⟩, hm'⟩
          rw [List.all_eq_true] at hall ⊢
          intro c hc
          have := hall c hc
          simp only [decide_eq_true_eq] at this ⊢
          omega

/-- Storing a run of bytes keeps the canonical form. -/
theorem cellsSet_wf (m : List Host.Cell) (a : Nat) (bs : List Byte) (ha : a + bs.length ≤ arrayBytes)
    (hm : cellsWf m = true) : cellsWf (cellsSet m a bs) = true := by
  induction bs generalizing m a with
  | nil => exact hm
  | cons b rest ih =>
    rw [cellsSet]
    simp only [List.length_cons] at ha
    exact ih _ _ (by omega) (cellSet_wf m a b (by omega) hm)

/-- A byte outside a run that is stored reads as before. -/
theorem cellsSet_other (m : List Host.Cell) (a : Nat) (bs : List Byte) (b : Nat) (h : b < a ∨ a + bs.length ≤ b) :
    cellGet (cellsSet m a bs) b = cellGet m b := by
  induction bs generalizing m a with
  | nil => rfl
  | cons x rest ih =>
    rw [cellsSet]
    simp only [List.length_cons] at h
    rw [ih _ _ (by omega), cellGet_cellSet_other _ _ _ _ (by omega)]

/-- A byte of a run that is stored reads as stored. -/
theorem cellsSet_inside (m : List Host.Cell) (a : Nat) (bs : List Byte) (i : Nat) (hi : i < bs.length)
    (ha : a + bs.length ≤ arrayBytes) (hm : cellsWf m = true) :
    cellGet (cellsSet m a bs) (a + i) = bs[i] := by
  induction bs generalizing m a i with
  | nil => simp at hi
  | cons x rest ih =>
    rw [cellsSet]
    simp only [List.length_cons] at hi ha
    have hw := cellSet_wf m a x (by omega) hm
    cases i with
    | zero =>
      rw [Nat.add_zero, cellsSet_other _ _ _ _ (by omega)]
      exact cellGet_cellSet_same m a x hm
    | succ j =>
      have := ih (cellSet m a x) (a + 1) j (by omega) (by omega) hw
      rw [show a + (j + 1) = a + 1 + j by omega, this]
      rfl

theorem cellsWf_filter (m : List Host.Cell) (p : Host.Cell → Bool) (hm : cellsWf m = true) :
    cellsWf (m.filter p) = true := by
  induction m with
  | nil => rfl
  | cons c rest ih =>
    obtain ⟨k, v⟩ := c
    simp only [cellsWf, Bool.and_eq_true, decide_eq_true_eq] at hm
    obtain ⟨⟨hkv, hall⟩, hrest⟩ := hm
    rw [List.filter_cons]
    split
    · simp only [cellsWf, Bool.and_eq_true, decide_eq_true_eq]
      refine ⟨⟨hkv, ?_⟩, ih hrest⟩
      rw [List.all_eq_true] at hall ⊢
      exact fun c hc => hall c (List.mem_of_mem_filter hc)
    · exact ih hrest

/-! ### Lines -/

theorem lineNo_lt (sec : SectorIx) (line : Nat) : lineNo sec line < 8192 := by
  have h := sec.isLt
  have h2 : line % 256 < 256 := Nat.mod_lt _ (by decide)
  unfold lineNo Config.linesPerSector
  omega

theorem linesRising_filter (l : List Nat) (p : Nat → Bool) (h : linesRising l = true) :
    linesRising (l.filter p) = true := by
  induction l with
  | nil => rfl
  | cons k rest ih =>
    simp only [linesRising, Bool.and_eq_true] at h
    rw [List.filter_cons]
    split
    · simp only [linesRising, Bool.and_eq_true]
      refine ⟨?_, ih h.2⟩
      rw [List.all_eq_true]
      exact fun c hc => List.all_eq_true.mp h.1 c (List.mem_of_mem_filter hc)
    · exact ih h.2

theorem insertLine_above (l : List Nat) (k n : Nat) (hk : k < n) (h : l.all (fun x => decide (k < x)) = true) :
    (insertLine l n).all (fun x => decide (k < x)) = true := by
  induction l with
  | nil => simp [insertLine, hk]
  | cons j rest ih =>
    simp only [List.all_cons, Bool.and_eq_true, decide_eq_true_eq] at h
    rw [insertLine]
    split
    · simp [h.1, ih h.2]
    · split
      · simp [h.1, h.2]
      · simp [hk, h.1, h.2]

theorem insertLine_rising (l : List Nat) (n : Nat) (h : linesRising l = true) :
    linesRising (insertLine l n) = true := by
  induction l with
  | nil => rfl
  | cons k rest ih =>
    have h' := h
    simp only [linesRising, Bool.and_eq_true] at h
    rw [insertLine]
    split
    · rename_i hk
      simp only [linesRising, Bool.and_eq_true]
      exact ⟨insertLine_above rest k n hk h.1, ih h.2⟩
    · split
      · exact h'
      · rename_i hk hne
        rw [linesRising, Bool.and_eq_true]
        refine ⟨?_, h'⟩
        simp only [List.all_cons, Bool.and_eq_true, decide_eq_true_eq]
        refine ⟨by omega, ?_⟩
        rw [List.all_eq_true]
        intro x hx
        have := List.all_eq_true.mp h.1 x hx
        simp only [decide_eq_true_eq] at this ⊢
        omega

theorem markUndef_lines (us : List (Nat × UndefKind)) (n : Nat) (u : UndefKind) :
    (markUndef us n u).map Prod.fst = insertLine (us.map Prod.fst) n := by
  induction us with
  | nil => rfl
  | cons c rest ih =>
    obtain ⟨k, w⟩ := c
    simp only [markUndef, List.map_cons, insertLine]
    split
    · simp [ih]
    · split
      · rename_i h; simp [h]
      · simp

theorem filter_map_fst (us : List (Nat × UndefKind)) (p : Nat → Bool) :
    (us.filter (fun c => p c.1)).map Prod.fst = (us.map Prod.fst).filter p := by
  rw [List.filter_map]; rfl

theorem linesRising_append (a b : List Nat) (n : Nat) (ha : linesRising a = true) (hb : linesRising b = true)
    (hlow : ∀ x ∈ a, x < n) (hhigh : ∀ x ∈ b, n ≤ x) : linesRising (a ++ b) = true := by
  induction a with
  | nil => exact hb
  | cons k rest ih =>
    simp only [linesRising, Bool.and_eq_true] at ha
    rw [List.cons_append, linesRising, Bool.and_eq_true]
    refine ⟨?_, ih ha.2 (fun x hx => hlow x (List.mem_cons_of_mem _ hx))⟩
    rw [List.all_append, Bool.and_eq_true]
    refine ⟨ha.1, ?_⟩
    rw [List.all_eq_true]
    intro x hx
    have h1 := hlow k List.mem_cons_self
    have h2 := hhigh x hx
    simp only [decide_eq_true_eq]
    omega

theorem linesRising_range (base n : Nat) :
    linesRising ((List.range' base n)) = true := by
  induction n generalizing base with
  | zero => rfl
  | succ k ih =>
    rw [List.range'_succ, linesRising, Bool.and_eq_true]
    refine ⟨?_, ih (base + 1)⟩
    rw [List.all_eq_true]
    intro x hx
    have := List.mem_range'_1.mp hx
    simp only [decide_eq_true_eq]
    omega

theorem undefSector_rising (us : List (Nat × UndefKind)) (sec : SectorIx) (u : UndefKind)
    (h : linesRising (us.map Prod.fst) = true) : linesRising ((undefSector us sec u).map Prod.fst) = true := by
  have hmid : ((sectorBase sec, u) :: (List.range 255).map (fun i => (sectorBase sec + 1 + i, UndefKind.free))).map
      Prod.fst = List.range' (sectorBase sec) 256 := by
    rw [List.range'_succ, List.map_cons, List.map_map, List.range'_eq_map_range]
    rfl
  unfold undefSector
  rw [List.map_append, List.map_append, hmid, filter_map_fst us (fun n => decide (n < sectorBase sec)),
    filter_map_fst us (fun n => decide (sectorBase sec + Config.linesPerSector ≤ n)), List.append_assoc]
  apply linesRising_append _ _ (sectorBase sec) (linesRising_filter _ _ h)
  · apply linesRising_append _ _ (sectorBase sec + 256) (linesRising_range _ _) (linesRising_filter _ _ h)
    · intro x hx
      have := List.mem_range'_1.mp hx
      omega
    · intro x hx
      have := (List.mem_filter.mp hx).2
      simp only [Config.linesPerSector] at this
      have := of_decide_eq_true this
      omega
  · intro x hx
    have := (List.mem_filter.mp hx).2
    simpa using this
  · intro x hx
    rcases List.mem_append.mp hx with h1 | h1
    · exact (List.mem_range'_1.mp h1).1
    · have := (List.mem_filter.mp h1).2
      simp only [Config.linesPerSector] at this
      have := of_decide_eq_true this
      omega

/-! ### The marks of lines -/

theorem mem_insertLine (l : List Nat) (n m : Nat) : m ∈ insertLine l n ↔ m = n ∨ m ∈ l := by
  induction l with
  | nil => simp [insertLine]
  | cons k rest ih =>
    rw [insertLine]
    split
    · simp only [List.mem_cons, ih]; exact or_left_comm
    · split
      · rename_i h; simp [h]
      · simp

/-- A line holds undefined bytes just when it is listed. -/
theorem undefKind_iff (us : List (Nat × UndefKind)) (ln : Nat) :
    undefKind us ln ≠ none ↔ ln ∈ us.map Prod.fst := by
  induction us with
  | nil => simp [undefKind]
  | cons c rest ih =>
    obtain ⟨k, w⟩ := c
    rw [undefKind, List.map_cons, List.mem_cons]
    split
    · rename_i h; simp [h]
    · rename_i h
      rw [ih]
      exact ⟨.inr, fun e => e.resolve_left fun e => h e.symm⟩

/-- Lines written in `f` are written in `g`, and lines of undefined bytes in `f` hold undefined bytes in `g`. -/
structure Flash.MarksKept (f g : Flash) : Prop where
  written : ∀ ln, ln ∈ f.written → ln ∈ g.written
  undef : ∀ ln, undefKind f.undef ln ≠ none → undefKind g.undef ln ≠ none

theorem Flash.MarksKept.refl (f : Flash) : f.MarksKept f := ⟨fun _ h => h, fun _ h => h⟩

theorem Flash.MarksKept.trans {f g h : Flash} (h1 : f.MarksKept g) (h2 : g.MarksKept h) : f.MarksKept h :=
  ⟨fun ln e => h2.written ln (h1.written ln e), fun ln e => h2.undef ln (h1.undef ln e)⟩

theorem markUndef_kept (us : List (Nat × UndefKind)) (n : Nat) (u : UndefKind) (ln : Nat)
    (h : undefKind us ln ≠ none) : undefKind (markUndef us n u) ln ≠ none := by
  rw [undefKind_iff] at h ⊢
  rw [markUndef_lines, mem_insertLine]
  exact .inr h

theorem undefSector_kept (us : List (Nat × UndefKind)) (sec : SectorIx) (u : UndefKind) (ln : Nat)
    (h : undefKind us ln ≠ none) : undefKind (undefSector us sec u) ln ≠ none := by
  rw [undefKind_iff] at h ⊢
  obtain ⟨c, hc, rfl⟩ := List.mem_map.mp h
  unfold undefSector
  simp only [List.map_append, List.mem_append, List.mem_map, List.mem_filter, decide_eq_true_eq, List.mem_cons,
    List.mem_range, Config.linesPerSector]
  by_cases h1 : c.1 < sectorBase sec
  · exact .inl (.inl ⟨c, ⟨hc, h1⟩, rfl⟩)
  · by_cases h2 : sectorBase sec + 256 ≤ c.1
    · exact .inr ⟨c, ⟨hc, decide_eq_true h2⟩, rfl⟩
    · left; right
      by_cases h3 : c.1 = sectorBase sec
      · exact ⟨(sectorBase sec, u), .inl rfl, h3.symm⟩
      · exact ⟨(c.1, .free), .inr ⟨c.1 - sectorBase sec - 1, by omega, by
          rw [show sectorBase sec + 1 + (c.1 - sectorBase sec - 1) = c.1 by omega]⟩, rfl⟩

theorem Flash.beginProgram_marks (f : Flash) (sec : SectorIx) (line : Nat) (u : UndefKind) :
    f.MarksKept (f.beginProgram sec line u) :=
  ⟨fun _ h => (mem_insertLine _ _ _).mpr (.inr h), fun _ h => markUndef_kept _ _ _ _ h⟩

theorem Flash.beginErase_marks (f : Flash) (sec : SectorIx) : f.MarksKept (f.beginErase sec) :=
  ⟨fun _ h => h, fun _ h => undefSector_kept _ _ _ _ h⟩

theorem Flash.failProgram_marks (f : Flash) (sec : SectorIx) (line : Nat) : f.MarksKept (f.failProgram sec line) :=
  ⟨fun _ h => h, fun _ h => markUndef_kept _ _ _ _ h⟩

theorem Flash.failErase_marks (f : Flash) (sec : SectorIx) : f.MarksKept (f.failErase sec) :=
  ⟨fun _ h => h, fun _ h => undefSector_kept _ _ _ _ h⟩

/-- A PROGRAM that ends well leaves no line unwritten, and clears the undefined mark of its own line alone. -/
theorem Flash.endProgram_undef (f : Flash) (sec : SectorIx) (line : Nat) (data : List Byte) (ln : Nat) :
    undefKind (f.endProgram sec line data).undef ln ≠ none ↔ undefKind f.undef ln ≠ none ∧ ln ≠ lineNo sec line := by
  rw [undefKind_iff, undefKind_iff]
  show ln ∈ (f.undef.filter (fun p => decide (p.1 ≠ lineNo sec line))).map Prod.fst ↔ _
  rw [filter_map_fst f.undef (fun n => decide (n ≠ lineNo sec line)), List.mem_filter]
  simp

/-- An ERASE that ends well clears the marks of its sector alone. -/
theorem Flash.endErase_marks (f : Flash) (sec : SectorIx) (ln : Nat) :
    (ln ∈ (f.endErase sec).written ↔ ln ∈ f.written ∧ inSector sec ln = false) ∧
      (undefKind (f.endErase sec).undef ln ≠ none ↔ undefKind f.undef ln ≠ none ∧ inSector sec ln = false) := by
  rw [undefKind_iff, undefKind_iff]
  constructor
  · show ln ∈ f.written.filter (fun n => !inSector sec n) ↔ _
    simp [List.mem_filter]
  · show ln ∈ (f.undef.filter (fun p => !inSector sec p.1)).map Prod.fst ↔ _
    rw [filter_map_fst f.undef (fun n => !inSector sec n), List.mem_filter]
    simp

/-! ### The whole array -/

theorem Flash.wf_iff (f : Flash) : f.wf = true ↔
    cellsWf f.cells = true ∧ linesRising f.written = true ∧ linesRising (f.undef.map Prod.fst) = true := by
  unfold Flash.wf
  simp only [Bool.and_eq_true, and_assoc]

theorem Flash.blank_wf : Flash.blank.wf = true := rfl

theorem Flash.beginProgram_wf (f : Flash) (sec : SectorIx) (line : Nat) (u : UndefKind) (h : f.wf = true) :
    (f.beginProgram sec line u).wf = true := by
  rw [Flash.wf_iff] at h ⊢
  exact ⟨h.1, insertLine_rising _ _ h.2.1, by
    show linesRising ((markUndef f.undef _ u).map Prod.fst) = true
    rw [markUndef_lines]; exact insertLine_rising _ _ h.2.2⟩

theorem Flash.endProgram_wf (f : Flash) (sec : SectorIx) (line : Nat) (data : List Byte) (h : f.wf = true) :
    (f.endProgram sec line data).wf = true := by
  rw [Flash.wf_iff] at h ⊢
  refine ⟨cellsSet_wf _ _ _ ?_ h.1, h.2.1, ?_⟩
  · have := lineNo_lt sec line
    simp only [arrayBytes, Config.sectorCount, Config.linesPerSector, Config.lineBytes, List.length_take]
    omega
  · show linesRising ((f.undef.filter _).map Prod.fst) = true
    rw [filter_map_fst f.undef (fun n => decide (n ≠ lineNo sec line))]
    exact linesRising_filter _ _ h.2.2

theorem Flash.failProgram_wf (f : Flash) (sec : SectorIx) (line : Nat) (h : f.wf = true) :
    (f.failProgram sec line).wf = true := by
  rw [Flash.wf_iff] at h ⊢
  exact ⟨h.1, h.2.1, by
    show linesRising ((markUndef f.undef _ .free).map Prod.fst) = true
    rw [markUndef_lines]; exact insertLine_rising _ _ h.2.2⟩

theorem Flash.beginErase_wf (f : Flash) (sec : SectorIx) (h : f.wf = true) : (f.beginErase sec).wf = true := by
  rw [Flash.wf_iff] at h ⊢
  exact ⟨h.1, h.2.1, undefSector_rising _ _ _ h.2.2⟩

theorem Flash.failErase_wf (f : Flash) (sec : SectorIx) (h : f.wf = true) : (f.failErase sec).wf = true := by
  rw [Flash.wf_iff] at h ⊢
  exact ⟨h.1, h.2.1, undefSector_rising _ _ _ h.2.2⟩

theorem Flash.endErase_wf (f : Flash) (sec : SectorIx) (h : f.wf = true) : (f.endErase sec).wf = true := by
  rw [Flash.wf_iff] at h ⊢
  refine ⟨cellsWf_filter _ _ h.1, linesRising_filter _ _ h.2.1, ?_⟩
  show linesRising ((f.undef.filter _).map Prod.fst) = true
  rw [filter_map_fst f.undef (fun n => !inSector sec n)]
  exact linesRising_filter _ _ h.2.2

/-- The array of the reset state is in canonical form. -/
theorem State.reset_flash_wf : State.reset.flash.wf = true := rfl

/-- A byte of a line that a PROGRAM has written reads as programmed. -/
theorem Flash.endProgram_byte (f : Flash) (sec : SectorIx) (line : Nat) (data : List Byte) (i : Nat)
    (hi : i < 16) (hd : data.length = 16) (h : f.wf = true) :
    (f.endProgram sec line data).byte (lineNo sec line) i = data[i] := by
  have hl := lineNo_lt sec line
  have ht : data.take 16 = data := by rw [← hd]; exact List.take_length
  unfold Flash.byte Flash.endProgram
  simp only [Config.lineBytes, ht]
  exact cellsSet_inside _ _ _ i (by omega)
    (by simp only [arrayBytes, Config.sectorCount, Config.linesPerSector, Config.lineBytes]; omega)
    ((Flash.wf_iff f).mp h).1

/-- A byte of any other line reads as before. -/
theorem Flash.endProgram_byte_other (f : Flash) (sec : SectorIx) (line : Nat) (data : List Byte) (ln i : Nat)
    (hi : i < 16) (hln : ln ≠ lineNo sec line) :
    (f.endProgram sec line data).byte ln i = f.byte ln i := by
  unfold Flash.byte Flash.endProgram
  apply cellsSet_other
  simp only [Config.lineBytes, List.length_take]
  omega

end Sys2Proof.Machine
end

