-- ==== Sys2Proof/Laws/Grant.lean ====
section
/-! SUPPORT. The grant: what it may change, that it changes no byte, and that a second one finds nothing left to grant. -/

namespace Sys2Proof.Machine

set_option Elab.async false

/-- What a grant may change: the Sequencer and the array; nothing else. -/
structure Granted (s t : State) : Prop where
  rest : t = { s with flash := t.flash, arr := t.arr }
  wf : s.flash.wf = true → t.flash.wf = true
  marks : s.flash.MarksKept t.flash
  barred : s.writeBar.isSome = true → t.flash = s.flash

theorem Granted.refl (s : State) : Granted s s := ⟨rfl, id, .refl _, fun _ => rfl⟩

theorem beginFlash_wf (s : State) (x : SlotId) (op : ArrayOp) (h : s.flash.wf = true) :
    (s.beginFlash x op).wf = true := by
  cases op with
  | program sec line data => exact Flash.beginProgram_wf _ _ _ _ h
  | erase sec => exact Flash.beginErase_wf _ _ h
  | readRecord sec line len => exact h
  | readLines sec line n => exact h

theorem beginFlash_marks (s : State) (x : SlotId) (op : ArrayOp) : s.flash.MarksKept (s.beginFlash x op) := by
  cases op with
  | program sec line data => exact Flash.beginProgram_marks _ _ _ _
  | erase sec => exact Flash.beginErase_marks _ _
  | readRecord sec line len => exact .refl _
  | readLines sec line n => exact .refl _

theorem beginFlash_read (s : State) (x : SlotId) (op : ArrayOp) (h : op.isWrite = false) :
    s.beginFlash x op = s.flash := by
  cases op with
  | program sec line data => cases h
  | erase sec => cases h
  | readRecord sec line len => rfl
  | readLines sec line n => rfl

/-- An eligible request that the write bar meets is a READ (R112). -/
theorem eligible_barred {s : State} {x : SlotId} {r : Request} (he : s.eligible x = true)
    (hb : s.writeBar.isSome = true) (hr : s.arr.slot x = some r) : r.op.isWrite = false := by
  unfold State.eligible at he
  rw [hr] at he
  simp only [hb, Bool.and_true, Bool.and_eq_true, Bool.not_eq_true'] at he
  exact he.1.2

theorem granted_start (s : State) (x : SlotId) (n : Nat) (he : s.eligible x = true) : Granted s (s.start x n) := by
  unfold State.start
  split
  · exact .refl s
  · rename_i r hr
    exact ⟨rfl, beginFlash_wf s x r.op, beginFlash_marks s x r.op,
      fun hb => beginFlash_read s x r.op (eligible_barred he hb hr)⟩

theorem granted_suspended (s : State) (e : EraseRun) : Granted s (s.grantSuspended e) := by
  unfold State.grantSuspended
  split
  · exact granted_start _ _ _ ‹_›
  · split
    · exact granted_start _ _ _ ‹_›
    · exact ⟨rfl, id, .refl _, fun _ => rfl⟩

/-- A grant changes the Sequencer, and of the array what the begin of an operation changes; under the write bar it
changes nothing of the array (R107, R112). -/
theorem granted (s : State) : Granted s s.grant := by
  unfold State.grant
  split
  · exact .refl s
  · split
    · split
      · exact granted_suspended _ _
      · exact .refl s
    · split
      · rename_i h
        exact granted_start _ _ _ (by simp only [Bool.and_eq_true] at h; exact h.1)
      · split
        · exact granted_start _ _ _ ‹_›
        · split
          · exact granted_start _ _ _ ‹_›
          · split
            · exact granted_start _ _ _ ‹_›
            · split
              · exact granted_start _ _ _ ‹_›
              · exact .refl s

theorem start_byte (s : State) (x : SlotId) (n : Nat) : (s.start x n).flash.cells = s.flash.cells := by
  unfold State.start
  split
  · rfl
  · rename_i r hr
    cases r with
    | mk op b => cases op <;> rfl

/-- A grant changes no byte (R107). -/
theorem grant_cells (s : State) : s.grant.flash.cells = s.flash.cells := by
  unfold State.grant State.grantSuspended
  repeat' split
  all_goals first | rfl | exact start_byte _ _ _

theorem grant_byte (s : State) (ln i : Nat) : s.grant.flash.byte ln i = s.flash.byte ln i := by
  unfold Flash.byte
  rw [grant_cells]

/-- A request that starts leaves the array performing an operation, or nothing was there to start. -/
theorem start_busy (s : State) (x : SlotId) (n : Nat) (h : s.eligible x = true) : (s.start x n).arr.busy = some x := by
  unfold State.start
  cases hr : s.arr.slot x with
  | none => simp [State.eligible, hr] at h
  | some r =>
    cases r with
    | mk op b =>
      cases op with
      | erase sec =>
        simp only [State.beginErase]
        split
        · unfold Sequencer.askSuspend
          simp only
          split <;> rfl
        · rfl
      | _ => rfl

/-- An operation in progress lets nothing be granted (R107). -/
theorem grant_of_busy {s : State} {x : SlotId} (h : s.arr.busy = some x) : s.grant = s := by
  unfold State.grant
  rw [h]

/-- A second grant finds nothing left to grant (R107). -/
theorem grant_grant (s : State) : s.grant.grant = s.grant := by
  by_cases hs : s.grant = s
  · rw [hs, hs]
  · obtain ⟨x, hx⟩ : ∃ x, s.grant.arr.busy = some x := by
      revert hs
      unfold State.grant State.grantSuspended
      repeat' split
      all_goals intro hs
      all_goals first
        | exact absurd rfl hs
        | exact ⟨_, start_busy _ _ _ (by simp_all)⟩
        | exact ⟨_, rfl⟩
    exact grant_of_busy hx

end Sys2Proof.Machine
end

