-- ==== Sys2Proof/Laws/State.lean ====
section
/-! SUPPORT. One lemma per field per update of State, and what the updates set. -/

namespace Sys2Proof.Machine

set_option Elab.async false

/-! ### raise -/

@[simp] theorem State.raise_flash (s : State) (i : Indication) :
    (s.raise i).flash = s.flash := rfl
@[simp] theorem State.raise_sectors (s : State) (i : Indication) :
    (s.raise i).sectors = s.sectors := rfl
@[simp] theorem State.raise_dir (s : State) (i : Indication) :
    (s.raise i).dir = s.dir := rfl
@[simp] theorem State.raise_lw (s : State) (i : Indication) :
    (s.raise i).lw = s.lw := rfl
@[simp] theorem State.raise_tm (s : State) (i : Indication) :
    (s.raise i).tm = s.tm := rfl
@[simp] theorem State.raise_eng (s : State) (i : Indication) :
    (s.raise i).eng = s.eng := rfl
@[simp] theorem State.raise_arr (s : State) (i : Indication) :
    (s.raise i).arr = s.arr := rfl
@[simp] theorem State.raise_store (s : State) (i : Indication) :
    (s.raise i).store = s.store := rfl
@[simp] theorem State.raise_guards (s : State) (i : Indication) :
    (s.raise i).guards = s.guards := rfl
@[simp] theorem State.raise_settings (s : State) (i : Indication) :
    (s.raise i).settings = s.settings := rfl
@[simp] theorem State.raise_cu (s : State) (i : Indication) :
    (s.raise i).cu = s.cu := rfl
@[simp] theorem State.raise_pins (s : State) (i : Indication) :
    (s.raise i).pins = s.pins := rfl
@[simp] theorem State.raise_freeCount (s : State) (i : Indication) :
    (s.raise i).freeCount = s.freeCount := rfl
@[simp] theorem State.raise_pending (s : State) (i : Indication) :
    (s.raise i).pending = s.pending := rfl

/-! ### modSector -/

@[simp] theorem State.modSector_flash (s : State) (i : SectorIx) (f : SectorEntry → SectorEntry) :
    (s.modSector i f).flash = s.flash := rfl
@[simp] theorem State.modSector_dir (s : State) (i : SectorIx) (f : SectorEntry → SectorEntry) :
    (s.modSector i f).dir = s.dir := rfl
@[simp] theorem State.modSector_lw (s : State) (i : SectorIx) (f : SectorEntry → SectorEntry) :
    (s.modSector i f).lw = s.lw := rfl
@[simp] theorem State.modSector_tm (s : State) (i : SectorIx) (f : SectorEntry → SectorEntry) :
    (s.modSector i f).tm = s.tm := rfl
@[simp] theorem State.modSector_eng (s : State) (i : SectorIx) (f : SectorEntry → SectorEntry) :
    (s.modSector i f).eng = s.eng := rfl
@[simp] theorem State.modSector_arr (s : State) (i : SectorIx) (f : SectorEntry → SectorEntry) :
    (s.modSector i f).arr = s.arr := rfl
@[simp] theorem State.modSector_store (s : State) (i : SectorIx) (f : SectorEntry → SectorEntry) :
    (s.modSector i f).store = s.store := rfl
@[simp] theorem State.modSector_guards (s : State) (i : SectorIx) (f : SectorEntry → SectorEntry) :
    (s.modSector i f).guards = s.guards := rfl
@[simp] theorem State.modSector_settings (s : State) (i : SectorIx) (f : SectorEntry → SectorEntry) :
    (s.modSector i f).settings = s.settings := rfl
@[simp] theorem State.modSector_cu (s : State) (i : SectorIx) (f : SectorEntry → SectorEntry) :
    (s.modSector i f).cu = s.cu := rfl
@[simp] theorem State.modSector_win (s : State) (i : SectorIx) (f : SectorEntry → SectorEntry) :
    (s.modSector i f).win = s.win := rfl
@[simp] theorem State.modSector_pins (s : State) (i : SectorIx) (f : SectorEntry → SectorEntry) :
    (s.modSector i f).pins = s.pins := rfl
@[simp] theorem State.modSector_freeCount (s : State) (i : SectorIx) (f : SectorEntry → SectorEntry) :
    (s.modSector i f).freeCount = s.freeCount := rfl
@[simp] theorem State.modSector_pending (s : State) (i : SectorIx) (f : SectorEntry → SectorEntry) :
    (s.modSector i f).pending = s.pending := rfl

/-! ### clearMarks -/

@[simp] theorem State.clearMarks_flash (s : State) :
    (s.clearMarks).flash = s.flash := rfl
@[simp] theorem State.clearMarks_dir (s : State) :
    (s.clearMarks).dir = s.dir := rfl
@[simp] theorem State.clearMarks_lw (s : State) :
    (s.clearMarks).lw = s.lw := rfl
@[simp] theorem State.clearMarks_tm (s : State) :
    (s.clearMarks).tm = s.tm := rfl
@[simp] theorem State.clearMarks_eng (s : State) :
    (s.clearMarks).eng = s.eng := rfl
@[simp] theorem State.clearMarks_arr (s : State) :
    (s.clearMarks).arr = s.arr := rfl
@[simp] theorem State.clearMarks_store (s : State) :
    (s.clearMarks).store = s.store := rfl
@[simp] theorem State.clearMarks_guards (s : State) :
    (s.clearMarks).guards = s.guards := rfl
@[simp] theorem State.clearMarks_settings (s : State) :
    (s.clearMarks).settings = s.settings := rfl
@[simp] theorem State.clearMarks_cu (s : State) :
    (s.clearMarks).cu = s.cu := rfl
@[simp] theorem State.clearMarks_win (s : State) :
    (s.clearMarks).win = s.win := rfl
@[simp] theorem State.clearMarks_pins (s : State) :
    (s.clearMarks).pins = s.pins := rfl
@[simp] theorem State.clearMarks_freeCount (s : State) :
    (s.clearMarks).freeCount = s.freeCount := rfl
@[simp] theorem State.clearMarks_pending (s : State) :
    (s.clearMarks).pending = s.pending := rfl

/-! ### dequeue -/

@[simp] theorem State.dequeue_flash (s : State) :
    (s.dequeue).flash = s.flash := rfl
@[simp] theorem State.dequeue_sectors (s : State) :
    (s.dequeue).sectors = s.sectors := rfl
@[simp] theorem State.dequeue_dir (s : State) :
    (s.dequeue).dir = s.dir := rfl
@[simp] theorem State.dequeue_lw (s : State) :
    (s.dequeue).lw = s.lw := rfl
@[simp] theorem State.dequeue_tm (s : State) :
    (s.dequeue).tm = s.tm := rfl
@[simp] theorem State.dequeue_eng (s : State) :
    (s.dequeue).eng = s.eng := rfl
@[simp] theorem State.dequeue_arr (s : State) :
    (s.dequeue).arr = s.arr := rfl
@[simp] theorem State.dequeue_store (s : State) :
    (s.dequeue).store = s.store := rfl
@[simp] theorem State.dequeue_guards (s : State) :
    (s.dequeue).guards = s.guards := rfl
@[simp] theorem State.dequeue_settings (s : State) :
    (s.dequeue).settings = s.settings := rfl
@[simp] theorem State.dequeue_win (s : State) :
    (s.dequeue).win = s.win := rfl
@[simp] theorem State.dequeue_pins (s : State) :
    (s.dequeue).pins = s.pins := rfl
@[simp] theorem State.dequeue_freeCount (s : State) :
    (s.dequeue).freeCount = s.freeCount := rfl
@[simp] theorem State.dequeue_pending (s : State) :
    (s.dequeue).pending = s.pending := rfl

/-! ### post -/

@[simp] theorem State.post_flash (s : State) (c : Completion) :
    (s.post c).flash = s.flash := rfl
@[simp] theorem State.post_sectors (s : State) (c : Completion) :
    (s.post c).sectors = s.sectors := rfl
@[simp] theorem State.post_dir (s : State) (c : Completion) :
    (s.post c).dir = s.dir := rfl
@[simp] theorem State.post_lw (s : State) (c : Completion) :
    (s.post c).lw = s.lw := rfl
@[simp] theorem State.post_tm (s : State) (c : Completion) :
    (s.post c).tm = s.tm := rfl
@[simp] theorem State.post_eng (s : State) (c : Completion) :
    (s.post c).eng = s.eng := rfl
@[simp] theorem State.post_arr (s : State) (c : Completion) :
    (s.post c).arr = s.arr := rfl
@[simp] theorem State.post_store (s : State) (c : Completion) :
    (s.post c).store = s.store := rfl
@[simp] theorem State.post_guards (s : State) (c : Completion) :
    (s.post c).guards = s.guards := rfl
@[simp] theorem State.post_settings (s : State) (c : Completion) :
    (s.post c).settings = s.settings := rfl
@[simp] theorem State.post_win (s : State) (c : Completion) :
    (s.post c).win = s.win := rfl
@[simp] theorem State.post_pins (s : State) (c : Completion) :
    (s.post c).pins = s.pins := rfl
@[simp] theorem State.post_freeCount (s : State) (c : Completion) :
    (s.post c).freeCount = s.freeCount := rfl
@[simp] theorem State.post_pending (s : State) (c : Completion) :
    (s.post c).pending = s.pending := rfl

/-! ### answer -/

@[simp] theorem State.answer_flash (s : State) (e : CmdEntry) (st : Status) (a b c : Nat) :
    (s.answer e st a b c).flash = s.flash := rfl
@[simp] theorem State.answer_sectors (s : State) (e : CmdEntry) (st : Status) (a b c : Nat) :
    (s.answer e st a b c).sectors = s.sectors := rfl
@[simp] theorem State.answer_dir (s : State) (e : CmdEntry) (st : Status) (a b c : Nat) :
    (s.answer e st a b c).dir = s.dir := rfl
@[simp] theorem State.answer_lw (s : State) (e : CmdEntry) (st : Status) (a b c : Nat) :
    (s.answer e st a b c).lw = s.lw := rfl
@[simp] theorem State.answer_tm (s : State) (e : CmdEntry) (st : Status) (a b c : Nat) :
    (s.answer e st a b c).tm = s.tm := rfl
@[simp] theorem State.answer_eng (s : State) (e : CmdEntry) (st : Status) (a b c : Nat) :
    (s.answer e st a b c).eng = s.eng := rfl
@[simp] theorem State.answer_arr (s : State) (e : CmdEntry) (st : Status) (a b c : Nat) :
    (s.answer e st a b c).arr = s.arr := rfl
@[simp] theorem State.answer_store (s : State) (e : CmdEntry) (st : Status) (a b c : Nat) :
    (s.answer e st a b c).store = s.store := rfl
@[simp] theorem State.answer_guards (s : State) (e : CmdEntry) (st : Status) (a b c : Nat) :
    (s.answer e st a b c).guards = s.guards := rfl
@[simp] theorem State.answer_settings (s : State) (e : CmdEntry) (st : Status) (a b c : Nat) :
    (s.answer e st a b c).settings = s.settings := rfl
@[simp] theorem State.answer_win (s : State) (e : CmdEntry) (st : Status) (a b c : Nat) :
    (s.answer e st a b c).win = s.win := rfl
@[simp] theorem State.answer_pins (s : State) (e : CmdEntry) (st : Status) (a b c : Nat) :
    (s.answer e st a b c).pins = s.pins := rfl
@[simp] theorem State.answer_freeCount (s : State) (e : CmdEntry) (st : Status) (a b c : Nat) :
    (s.answer e st a b c).freeCount = s.freeCount := rfl
@[simp] theorem State.answer_pending (s : State) (e : CmdEntry) (st : Status) (a b c : Nat) :
    (s.answer e st a b c).pending = s.pending := rfl

/-! ### launch -/

@[simp] theorem State.launch_flash (s : State) (e : CmdEntry) :
    (s.launch e).flash = s.flash := rfl
@[simp] theorem State.launch_sectors (s : State) (e : CmdEntry) :
    (s.launch e).sectors = s.sectors := rfl
@[simp] theorem State.launch_dir (s : State) (e : CmdEntry) :
    (s.launch e).dir = s.dir := rfl
@[simp] theorem State.launch_lw (s : State) (e : CmdEntry) :
    (s.launch e).lw = s.lw := rfl
@[simp] theorem State.launch_tm (s : State) (e : CmdEntry) :
    (s.launch e).tm = s.tm := rfl
@[simp] theorem State.launch_eng (s : State) (e : CmdEntry) :
    (s.launch e).eng = s.eng := rfl
@[simp] theorem State.launch_arr (s : State) (e : CmdEntry) :
    (s.launch e).arr = s.arr := rfl
@[simp] theorem State.launch_store (s : State) (e : CmdEntry) :
    (s.launch e).store = s.store := rfl
@[simp] theorem State.launch_guards (s : State) (e : CmdEntry) :
    (s.launch e).guards = s.guards := rfl
@[simp] theorem State.launch_settings (s : State) (e : CmdEntry) :
    (s.launch e).settings = s.settings := rfl
@[simp] theorem State.launch_win (s : State) (e : CmdEntry) :
    (s.launch e).win = s.win := rfl
@[simp] theorem State.launch_pins (s : State) (e : CmdEntry) :
    (s.launch e).pins = s.pins := rfl
@[simp] theorem State.launch_freeCount (s : State) (e : CmdEntry) :
    (s.launch e).freeCount = s.freeCount := rfl
@[simp] theorem State.launch_pending (s : State) (e : CmdEntry) :
    (s.launch e).pending = s.pending := rfl

/-! ### setStaging -/

@[simp] theorem State.setStaging_flash (s : State) (l : List Staged) :
    (s.setStaging l).flash = s.flash := rfl
@[simp] theorem State.setStaging_sectors (s : State) (l : List Staged) :
    (s.setStaging l).sectors = s.sectors := rfl
@[simp] theorem State.setStaging_dir (s : State) (l : List Staged) :
    (s.setStaging l).dir = s.dir := rfl
@[simp] theorem State.setStaging_lw (s : State) (l : List Staged) :
    (s.setStaging l).lw = s.lw := rfl
@[simp] theorem State.setStaging_eng (s : State) (l : List Staged) :
    (s.setStaging l).eng = s.eng := rfl
@[simp] theorem State.setStaging_arr (s : State) (l : List Staged) :
    (s.setStaging l).arr = s.arr := rfl
@[simp] theorem State.setStaging_store (s : State) (l : List Staged) :
    (s.setStaging l).store = s.store := rfl
@[simp] theorem State.setStaging_guards (s : State) (l : List Staged) :
    (s.setStaging l).guards = s.guards := rfl
@[simp] theorem State.setStaging_settings (s : State) (l : List Staged) :
    (s.setStaging l).settings = s.settings := rfl
@[simp] theorem State.setStaging_cu (s : State) (l : List Staged) :
    (s.setStaging l).cu = s.cu := rfl
@[simp] theorem State.setStaging_win (s : State) (l : List Staged) :
    (s.setStaging l).win = s.win := rfl
@[simp] theorem State.setStaging_pins (s : State) (l : List Staged) :
    (s.setStaging l).pins = s.pins := rfl
@[simp] theorem State.setStaging_freeCount (s : State) (l : List Staged) :
    (s.setStaging l).freeCount = s.freeCount := rfl
@[simp] theorem State.setStaging_pending (s : State) (l : List Staged) :
    (s.setStaging l).pending = s.pending := rfl

/-! ### setCommit -/

@[simp] theorem State.setCommit_flash (s : State) (f : Option CommitFlight) :
    (s.setCommit f).flash = s.flash := rfl
@[simp] theorem State.setCommit_sectors (s : State) (f : Option CommitFlight) :
    (s.setCommit f).sectors = s.sectors := rfl
@[simp] theorem State.setCommit_dir (s : State) (f : Option CommitFlight) :
    (s.setCommit f).dir = s.dir := rfl
@[simp] theorem State.setCommit_lw (s : State) (f : Option CommitFlight) :
    (s.setCommit f).lw = s.lw := rfl
@[simp] theorem State.setCommit_eng (s : State) (f : Option CommitFlight) :
    (s.setCommit f).eng = s.eng := rfl
@[simp] theorem State.setCommit_arr (s : State) (f : Option CommitFlight) :
    (s.setCommit f).arr = s.arr := rfl
@[simp] theorem State.setCommit_store (s : State) (f : Option CommitFlight) :
    (s.setCommit f).store = s.store := rfl
@[simp] theorem State.setCommit_guards (s : State) (f : Option CommitFlight) :
    (s.setCommit f).guards = s.guards := rfl
@[simp] theorem State.setCommit_settings (s : State) (f : Option CommitFlight) :
    (s.setCommit f).settings = s.settings := rfl
@[simp] theorem State.setCommit_cu (s : State) (f : Option CommitFlight) :
    (s.setCommit f).cu = s.cu := rfl
@[simp] theorem State.setCommit_win (s : State) (f : Option CommitFlight) :
    (s.setCommit f).win = s.win := rfl
@[simp] theorem State.setCommit_pins (s : State) (f : Option CommitFlight) :
    (s.setCommit f).pins = s.pins := rfl
@[simp] theorem State.setCommit_freeCount (s : State) (f : Option CommitFlight) :
    (s.setCommit f).freeCount = s.freeCount := rfl
@[simp] theorem State.setCommit_pending (s : State) (f : Option CommitFlight) :
    (s.setCommit f).pending = s.pending := rfl

/-! ### setSettingsWrite -/

@[simp] theorem State.setSettingsWrite_flash (s : State) (f : Option SettingsFlight) :
    (s.setSettingsWrite f).flash = s.flash := rfl
@[simp] theorem State.setSettingsWrite_sectors (s : State) (f : Option SettingsFlight) :
    (s.setSettingsWrite f).sectors = s.sectors := rfl
@[simp] theorem State.setSettingsWrite_dir (s : State) (f : Option SettingsFlight) :
    (s.setSettingsWrite f).dir = s.dir := rfl
@[simp] theorem State.setSettingsWrite_lw (s : State) (f : Option SettingsFlight) :
    (s.setSettingsWrite f).lw = s.lw := rfl
@[simp] theorem State.setSettingsWrite_eng (s : State) (f : Option SettingsFlight) :
    (s.setSettingsWrite f).eng = s.eng := rfl
@[simp] theorem State.setSettingsWrite_arr (s : State) (f : Option SettingsFlight) :
    (s.setSettingsWrite f).arr = s.arr := rfl
@[simp] theorem State.setSettingsWrite_store (s : State) (f : Option SettingsFlight) :
    (s.setSettingsWrite f).store = s.store := rfl
@[simp] theorem State.setSettingsWrite_guards (s : State) (f : Option SettingsFlight) :
    (s.setSettingsWrite f).guards = s.guards := rfl
@[simp] theorem State.setSettingsWrite_settings (s : State) (f : Option SettingsFlight) :
    (s.setSettingsWrite f).settings = s.settings := rfl
@[simp] theorem State.setSettingsWrite_cu (s : State) (f : Option SettingsFlight) :
    (s.setSettingsWrite f).cu = s.cu := rfl
@[simp] theorem State.setSettingsWrite_win (s : State) (f : Option SettingsFlight) :
    (s.setSettingsWrite f).win = s.win := rfl
@[simp] theorem State.setSettingsWrite_pins (s : State) (f : Option SettingsFlight) :
    (s.setSettingsWrite f).pins = s.pins := rfl
@[simp] theorem State.setSettingsWrite_freeCount (s : State) (f : Option SettingsFlight) :
    (s.setSettingsWrite f).freeCount = s.freeCount := rfl
@[simp] theorem State.setSettingsWrite_pending (s : State) (f : Option SettingsFlight) :
    (s.setSettingsWrite f).pending = s.pending := rfl

/-! ### holdStaging -/

@[simp] theorem State.holdStaging_flash (s : State) :
    (s.holdStaging).flash = s.flash := rfl
@[simp] theorem State.holdStaging_sectors (s : State) :
    (s.holdStaging).sectors = s.sectors := rfl
@[simp] theorem State.holdStaging_dir (s : State) :
    (s.holdStaging).dir = s.dir := rfl
@[simp] theorem State.holdStaging_lw (s : State) :
    (s.holdStaging).lw = s.lw := rfl
@[simp] theorem State.holdStaging_eng (s : State) :
    (s.holdStaging).eng = s.eng := rfl
@[simp] theorem State.holdStaging_arr (s : State) :
    (s.holdStaging).arr = s.arr := rfl
@[simp] theorem State.holdStaging_store (s : State) :
    (s.holdStaging).store = s.store := rfl
@[simp] theorem State.holdStaging_guards (s : State) :
    (s.holdStaging).guards = s.guards := rfl
@[simp] theorem State.holdStaging_settings (s : State) :
    (s.holdStaging).settings = s.settings := rfl
@[simp] theorem State.holdStaging_cu (s : State) :
    (s.holdStaging).cu = s.cu := rfl
@[simp] theorem State.holdStaging_win (s : State) :
    (s.holdStaging).win = s.win := rfl
@[simp] theorem State.holdStaging_pins (s : State) :
    (s.holdStaging).pins = s.pins := rfl
@[simp] theorem State.holdStaging_freeCount (s : State) :
    (s.holdStaging).freeCount = s.freeCount := rfl
@[simp] theorem State.holdStaging_pending (s : State) :
    (s.holdStaging).pending = s.pending := rfl

/-! ### reserveCommit -/

@[simp] theorem State.reserveCommit_flash (s : State) (n : Nat) :
    (s.reserveCommit n).flash = s.flash := rfl
@[simp] theorem State.reserveCommit_sectors (s : State) (n : Nat) :
    (s.reserveCommit n).sectors = s.sectors := rfl
@[simp] theorem State.reserveCommit_dir (s : State) (n : Nat) :
    (s.reserveCommit n).dir = s.dir := rfl
@[simp] theorem State.reserveCommit_tm (s : State) (n : Nat) :
    (s.reserveCommit n).tm = s.tm := rfl
@[simp] theorem State.reserveCommit_eng (s : State) (n : Nat) :
    (s.reserveCommit n).eng = s.eng := rfl
@[simp] theorem State.reserveCommit_arr (s : State) (n : Nat) :
    (s.reserveCommit n).arr = s.arr := rfl
@[simp] theorem State.reserveCommit_store (s : State) (n : Nat) :
    (s.reserveCommit n).store = s.store := rfl
@[simp] theorem State.reserveCommit_guards (s : State) (n : Nat) :
    (s.reserveCommit n).guards = s.guards := rfl
@[simp] theorem State.reserveCommit_settings (s : State) (n : Nat) :
    (s.reserveCommit n).settings = s.settings := rfl
@[simp] theorem State.reserveCommit_cu (s : State) (n : Nat) :
    (s.reserveCommit n).cu = s.cu := rfl
@[simp] theorem State.reserveCommit_win (s : State) (n : Nat) :
    (s.reserveCommit n).win = s.win := rfl
@[simp] theorem State.reserveCommit_pins (s : State) (n : Nat) :
    (s.reserveCommit n).pins = s.pins := rfl
@[simp] theorem State.reserveCommit_freeCount (s : State) (n : Nat) :
    (s.reserveCommit n).freeCount = s.freeCount := rfl
@[simp] theorem State.reserveCommit_pending (s : State) (n : Nat) :
    (s.reserveCommit n).pending = s.pending := rfl

/-! ### reserveReclaim -/

@[simp] theorem State.reserveReclaim_flash (s : State) (n : Nat) :
    (s.reserveReclaim n).flash = s.flash := rfl
@[simp] theorem State.reserveReclaim_sectors (s : State) (n : Nat) :
    (s.reserveReclaim n).sectors = s.sectors := rfl
@[simp] theorem State.reserveReclaim_dir (s : State) (n : Nat) :
    (s.reserveReclaim n).dir = s.dir := rfl
@[simp] theorem State.reserveReclaim_tm (s : State) (n : Nat) :
    (s.reserveReclaim n).tm = s.tm := rfl
@[simp] theorem State.reserveReclaim_eng (s : State) (n : Nat) :
    (s.reserveReclaim n).eng = s.eng := rfl
@[simp] theorem State.reserveReclaim_arr (s : State) (n : Nat) :
    (s.reserveReclaim n).arr = s.arr := rfl
@[simp] theorem State.reserveReclaim_store (s : State) (n : Nat) :
    (s.reserveReclaim n).store = s.store := rfl
@[simp] theorem State.reserveReclaim_guards (s : State) (n : Nat) :
    (s.reserveReclaim n).guards = s.guards := rfl
@[simp] theorem State.reserveReclaim_settings (s : State) (n : Nat) :
    (s.reserveReclaim n).settings = s.settings := rfl
@[simp] theorem State.reserveReclaim_cu (s : State) (n : Nat) :
    (s.reserveReclaim n).cu = s.cu := rfl
@[simp] theorem State.reserveReclaim_win (s : State) (n : Nat) :
    (s.reserveReclaim n).win = s.win := rfl
@[simp] theorem State.reserveReclaim_pins (s : State) (n : Nat) :
    (s.reserveReclaim n).pins = s.pins := rfl
@[simp] theorem State.reserveReclaim_freeCount (s : State) (n : Nat) :
    (s.reserveReclaim n).freeCount = s.freeCount := rfl
@[simp] theorem State.reserveReclaim_pending (s : State) (n : Nat) :
    (s.reserveReclaim n).pending = s.pending := rfl

/-! ### releaseCommit -/

@[simp] theorem State.releaseCommit_flash (s : State) :
    (s.releaseCommit).flash = s.flash := rfl
@[simp] theorem State.releaseCommit_sectors (s : State) :
    (s.releaseCommit).sectors = s.sectors := rfl
@[simp] theorem State.releaseCommit_dir (s : State) :
    (s.releaseCommit).dir = s.dir := rfl
@[simp] theorem State.releaseCommit_tm (s : State) :
    (s.releaseCommit).tm = s.tm := rfl
@[simp] theorem State.releaseCommit_eng (s : State) :
    (s.releaseCommit).eng = s.eng := rfl
@[simp] theorem State.releaseCommit_arr (s : State) :
    (s.releaseCommit).arr = s.arr := rfl
@[simp] theorem State.releaseCommit_store (s : State) :
    (s.releaseCommit).store = s.store := rfl
@[simp] theorem State.releaseCommit_guards (s : State) :
    (s.releaseCommit).guards = s.guards := rfl
@[simp] theorem State.releaseCommit_settings (s : State) :
    (s.releaseCommit).settings = s.settings := rfl
@[simp] theorem State.releaseCommit_cu (s : State) :
    (s.releaseCommit).cu = s.cu := rfl
@[simp] theorem State.releaseCommit_win (s : State) :
    (s.releaseCommit).win = s.win := rfl
@[simp] theorem State.releaseCommit_pins (s : State) :
    (s.releaseCommit).pins = s.pins := rfl
@[simp] theorem State.releaseCommit_freeCount (s : State) :
    (s.releaseCommit).freeCount = s.freeCount := rfl
@[simp] theorem State.releaseCommit_pending (s : State) :
    (s.releaseCommit).pending = s.pending := rfl

/-! ### releaseReclaim -/

@[simp] theorem State.releaseReclaim_flash (s : State) :
    (s.releaseReclaim).flash = s.flash := rfl
@[simp] theorem State.releaseReclaim_sectors (s : State) :
    (s.releaseReclaim).sectors = s.sectors := rfl
@[simp] theorem State.releaseReclaim_dir (s : State) :
    (s.releaseReclaim).dir = s.dir := rfl
@[simp] theorem State.releaseReclaim_tm (s : State) :
    (s.releaseReclaim).tm = s.tm := rfl
@[simp] theorem State.releaseReclaim_eng (s : State) :
    (s.releaseReclaim).eng = s.eng := rfl
@[simp] theorem State.releaseReclaim_arr (s : State) :
    (s.releaseReclaim).arr = s.arr := rfl
@[simp] theorem State.releaseReclaim_store (s : State) :
    (s.releaseReclaim).store = s.store := rfl
@[simp] theorem State.releaseReclaim_guards (s : State) :
    (s.releaseReclaim).guards = s.guards := rfl
@[simp] theorem State.releaseReclaim_settings (s : State) :
    (s.releaseReclaim).settings = s.settings := rfl
@[simp] theorem State.releaseReclaim_cu (s : State) :
    (s.releaseReclaim).cu = s.cu := rfl
@[simp] theorem State.releaseReclaim_win (s : State) :
    (s.releaseReclaim).win = s.win := rfl
@[simp] theorem State.releaseReclaim_pins (s : State) :
    (s.releaseReclaim).pins = s.pins := rfl
@[simp] theorem State.releaseReclaim_freeCount (s : State) :
    (s.releaseReclaim).freeCount = s.freeCount := rfl
@[simp] theorem State.releaseReclaim_pending (s : State) :
    (s.releaseReclaim).pending = s.pending := rfl

/-! ### dropCurrent -/

@[simp] theorem State.dropCurrent_flash (s : State) :
    (s.dropCurrent).flash = s.flash := rfl
@[simp] theorem State.dropCurrent_sectors (s : State) :
    (s.dropCurrent).sectors = s.sectors := rfl
@[simp] theorem State.dropCurrent_dir (s : State) :
    (s.dropCurrent).dir = s.dir := rfl
@[simp] theorem State.dropCurrent_tm (s : State) :
    (s.dropCurrent).tm = s.tm := rfl
@[simp] theorem State.dropCurrent_eng (s : State) :
    (s.dropCurrent).eng = s.eng := rfl
@[simp] theorem State.dropCurrent_arr (s : State) :
    (s.dropCurrent).arr = s.arr := rfl
@[simp] theorem State.dropCurrent_store (s : State) :
    (s.dropCurrent).store = s.store := rfl
@[simp] theorem State.dropCurrent_guards (s : State) :
    (s.dropCurrent).guards = s.guards := rfl
@[simp] theorem State.dropCurrent_settings (s : State) :
    (s.dropCurrent).settings = s.settings := rfl
@[simp] theorem State.dropCurrent_cu (s : State) :
    (s.dropCurrent).cu = s.cu := rfl
@[simp] theorem State.dropCurrent_win (s : State) :
    (s.dropCurrent).win = s.win := rfl
@[simp] theorem State.dropCurrent_pins (s : State) :
    (s.dropCurrent).pins = s.pins := rfl
@[simp] theorem State.dropCurrent_freeCount (s : State) :
    (s.dropCurrent).freeCount = s.freeCount := rfl
@[simp] theorem State.dropCurrent_pending (s : State) :
    (s.dropCurrent).pending = s.pending := rfl

/-! ### setEngine -/

@[simp] theorem State.setEngine_flash (s : State) (x : EngineState) :
    (s.setEngine x).flash = s.flash := rfl
@[simp] theorem State.setEngine_sectors (s : State) (x : EngineState) :
    (s.setEngine x).sectors = s.sectors := rfl
@[simp] theorem State.setEngine_dir (s : State) (x : EngineState) :
    (s.setEngine x).dir = s.dir := rfl
@[simp] theorem State.setEngine_lw (s : State) (x : EngineState) :
    (s.setEngine x).lw = s.lw := rfl
@[simp] theorem State.setEngine_tm (s : State) (x : EngineState) :
    (s.setEngine x).tm = s.tm := rfl
@[simp] theorem State.setEngine_arr (s : State) (x : EngineState) :
    (s.setEngine x).arr = s.arr := rfl
@[simp] theorem State.setEngine_store (s : State) (x : EngineState) :
    (s.setEngine x).store = s.store := rfl
@[simp] theorem State.setEngine_guards (s : State) (x : EngineState) :
    (s.setEngine x).guards = s.guards := rfl
@[simp] theorem State.setEngine_settings (s : State) (x : EngineState) :
    (s.setEngine x).settings = s.settings := rfl
@[simp] theorem State.setEngine_cu (s : State) (x : EngineState) :
    (s.setEngine x).cu = s.cu := rfl
@[simp] theorem State.setEngine_win (s : State) (x : EngineState) :
    (s.setEngine x).win = s.win := rfl
@[simp] theorem State.setEngine_pins (s : State) (x : EngineState) :
    (s.setEngine x).pins = s.pins := rfl
@[simp] theorem State.setEngine_freeCount (s : State) (x : EngineState) :
    (s.setEngine x).freeCount = s.freeCount := rfl
@[simp] theorem State.setEngine_pending (s : State) (x : EngineState) :
    (s.setEngine x).pending = s.pending := rfl

/-! ### advance -/

@[simp] theorem State.advance_flash (s : State) (p : Nat) :
    (s.advance p).flash = s.flash := rfl
@[simp] theorem State.advance_sectors (s : State) (p : Nat) :
    (s.advance p).sectors = s.sectors := rfl
@[simp] theorem State.advance_dir (s : State) (p : Nat) :
    (s.advance p).dir = s.dir := rfl
@[simp] theorem State.advance_lw (s : State) (p : Nat) :
    (s.advance p).lw = s.lw := rfl
@[simp] theorem State.advance_tm (s : State) (p : Nat) :
    (s.advance p).tm = s.tm := rfl
@[simp] theorem State.advance_arr (s : State) (p : Nat) :
    (s.advance p).arr = s.arr := rfl
@[simp] theorem State.advance_store (s : State) (p : Nat) :
    (s.advance p).store = s.store := rfl
@[simp] theorem State.advance_guards (s : State) (p : Nat) :
    (s.advance p).guards = s.guards := rfl
@[simp] theorem State.advance_settings (s : State) (p : Nat) :
    (s.advance p).settings = s.settings := rfl
@[simp] theorem State.advance_cu (s : State) (p : Nat) :
    (s.advance p).cu = s.cu := rfl
@[simp] theorem State.advance_win (s : State) (p : Nat) :
    (s.advance p).win = s.win := rfl
@[simp] theorem State.advance_pins (s : State) (p : Nat) :
    (s.advance p).pins = s.pins := rfl
@[simp] theorem State.advance_freeCount (s : State) (p : Nat) :
    (s.advance p).freeCount = s.freeCount := rfl
@[simp] theorem State.advance_pending (s : State) (p : Nat) :
    (s.advance p).pending = s.pending := rfl

/-! ### release -/

@[simp] theorem State.release_flash (s : State) (x : SlotId) :
    (s.release x).flash = s.flash := rfl
@[simp] theorem State.release_sectors (s : State) (x : SlotId) :
    (s.release x).sectors = s.sectors := rfl
@[simp] theorem State.release_dir (s : State) (x : SlotId) :
    (s.release x).dir = s.dir := rfl
@[simp] theorem State.release_lw (s : State) (x : SlotId) :
    (s.release x).lw = s.lw := rfl
@[simp] theorem State.release_tm (s : State) (x : SlotId) :
    (s.release x).tm = s.tm := rfl
@[simp] theorem State.release_eng (s : State) (x : SlotId) :
    (s.release x).eng = s.eng := rfl
@[simp] theorem State.release_store (s : State) (x : SlotId) :
    (s.release x).store = s.store := rfl
@[simp] theorem State.release_guards (s : State) (x : SlotId) :
    (s.release x).guards = s.guards := rfl
@[simp] theorem State.release_settings (s : State) (x : SlotId) :
    (s.release x).settings = s.settings := rfl
@[simp] theorem State.release_cu (s : State) (x : SlotId) :
    (s.release x).cu = s.cu := rfl
@[simp] theorem State.release_win (s : State) (x : SlotId) :
    (s.release x).win = s.win := rfl
@[simp] theorem State.release_pins (s : State) (x : SlotId) :
    (s.release x).pins = s.pins := rfl
@[simp] theorem State.release_freeCount (s : State) (x : SlotId) :
    (s.release x).freeCount = s.freeCount := rfl
@[simp] theorem State.release_pending (s : State) (x : SlotId) :
    (s.release x).pending = s.pending := rfl

/-! ### suspend -/

@[simp] theorem State.suspend_flash (s : State) (e : EraseRun) :
    (s.suspend e).flash = s.flash := rfl
@[simp] theorem State.suspend_sectors (s : State) (e : EraseRun) :
    (s.suspend e).sectors = s.sectors := rfl
@[simp] theorem State.suspend_dir (s : State) (e : EraseRun) :
    (s.suspend e).dir = s.dir := rfl
@[simp] theorem State.suspend_lw (s : State) (e : EraseRun) :
    (s.suspend e).lw = s.lw := rfl
@[simp] theorem State.suspend_tm (s : State) (e : EraseRun) :
    (s.suspend e).tm = s.tm := rfl
@[simp] theorem State.suspend_eng (s : State) (e : EraseRun) :
    (s.suspend e).eng = s.eng := rfl
@[simp] theorem State.suspend_store (s : State) (e : EraseRun) :
    (s.suspend e).store = s.store := rfl
@[simp] theorem State.suspend_guards (s : State) (e : EraseRun) :
    (s.suspend e).guards = s.guards := rfl
@[simp] theorem State.suspend_settings (s : State) (e : EraseRun) :
    (s.suspend e).settings = s.settings := rfl
@[simp] theorem State.suspend_cu (s : State) (e : EraseRun) :
    (s.suspend e).cu = s.cu := rfl
@[simp] theorem State.suspend_win (s : State) (e : EraseRun) :
    (s.suspend e).win = s.win := rfl
@[simp] theorem State.suspend_pins (s : State) (e : EraseRun) :
    (s.suspend e).pins = s.pins := rfl
@[simp] theorem State.suspend_freeCount (s : State) (e : EraseRun) :
    (s.suspend e).freeCount = s.freeCount := rfl
@[simp] theorem State.suspend_pending (s : State) (e : EraseRun) :
    (s.suspend e).pending = s.pending := rfl

/-! ### setScan -/

@[simp] theorem State.setScan_flash (s : State) (c : MountScan) :
    (s.setScan c).flash = s.flash := rfl
@[simp] theorem State.setScan_sectors (s : State) (c : MountScan) :
    (s.setScan c).sectors = s.sectors := rfl
@[simp] theorem State.setScan_dir (s : State) (c : MountScan) :
    (s.setScan c).dir = s.dir := rfl
@[simp] theorem State.setScan_lw (s : State) (c : MountScan) :
    (s.setScan c).lw = s.lw := rfl
@[simp] theorem State.setScan_tm (s : State) (c : MountScan) :
    (s.setScan c).tm = s.tm := rfl
@[simp] theorem State.setScan_eng (s : State) (c : MountScan) :
    (s.setScan c).eng = s.eng := rfl
@[simp] theorem State.setScan_arr (s : State) (c : MountScan) :
    (s.setScan c).arr = s.arr := rfl
@[simp] theorem State.setScan_guards (s : State) (c : MountScan) :
    (s.setScan c).guards = s.guards := rfl
@[simp] theorem State.setScan_settings (s : State) (c : MountScan) :
    (s.setScan c).settings = s.settings := rfl
@[simp] theorem State.setScan_cu (s : State) (c : MountScan) :
    (s.setScan c).cu = s.cu := rfl
@[simp] theorem State.setScan_win (s : State) (c : MountScan) :
    (s.setScan c).win = s.win := rfl
@[simp] theorem State.setScan_pins (s : State) (c : MountScan) :
    (s.setScan c).pins = s.pins := rfl
@[simp] theorem State.setScan_freeCount (s : State) (c : MountScan) :
    (s.setScan c).freeCount = s.freeCount := rfl
@[simp] theorem State.setScan_pending (s : State) (c : MountScan) :
    (s.setScan c).pending = s.pending := rfl

/-! ### setFormat -/

@[simp] theorem State.setFormat_flash (s : State) (f : FormatFlight) :
    (s.setFormat f).flash = s.flash := rfl
@[simp] theorem State.setFormat_sectors (s : State) (f : FormatFlight) :
    (s.setFormat f).sectors = s.sectors := rfl
@[simp] theorem State.setFormat_dir (s : State) (f : FormatFlight) :
    (s.setFormat f).dir = s.dir := rfl
@[simp] theorem State.setFormat_lw (s : State) (f : FormatFlight) :
    (s.setFormat f).lw = s.lw := rfl
@[simp] theorem State.setFormat_tm (s : State) (f : FormatFlight) :
    (s.setFormat f).tm = s.tm := rfl
@[simp] theorem State.setFormat_eng (s : State) (f : FormatFlight) :
    (s.setFormat f).eng = s.eng := rfl
@[simp] theorem State.setFormat_arr (s : State) (f : FormatFlight) :
    (s.setFormat f).arr = s.arr := rfl
@[simp] theorem State.setFormat_guards (s : State) (f : FormatFlight) :
    (s.setFormat f).guards = s.guards := rfl
@[simp] theorem State.setFormat_settings (s : State) (f : FormatFlight) :
    (s.setFormat f).settings = s.settings := rfl
@[simp] theorem State.setFormat_cu (s : State) (f : FormatFlight) :
    (s.setFormat f).cu = s.cu := rfl
@[simp] theorem State.setFormat_win (s : State) (f : FormatFlight) :
    (s.setFormat f).win = s.win := rfl
@[simp] theorem State.setFormat_pins (s : State) (f : FormatFlight) :
    (s.setFormat f).pins = s.pins := rfl
@[simp] theorem State.setFormat_freeCount (s : State) (f : FormatFlight) :
    (s.setFormat f).freeCount = s.freeCount := rfl
@[simp] theorem State.setFormat_pending (s : State) (f : FormatFlight) :
    (s.setFormat f).pending = s.pending := rfl

/-! ### setGuard -/

@[simp] theorem State.setGuard_flash (s : State) (i : GuardIx) (g : GuardSlot) :
    (s.setGuard i g).flash = s.flash := rfl
@[simp] theorem State.setGuard_sectors (s : State) (i : GuardIx) (g : GuardSlot) :
    (s.setGuard i g).sectors = s.sectors := rfl
@[simp] theorem State.setGuard_dir (s : State) (i : GuardIx) (g : GuardSlot) :
    (s.setGuard i g).dir = s.dir := rfl
@[simp] theorem State.setGuard_lw (s : State) (i : GuardIx) (g : GuardSlot) :
    (s.setGuard i g).lw = s.lw := rfl
@[simp] theorem State.setGuard_tm (s : State) (i : GuardIx) (g : GuardSlot) :
    (s.setGuard i g).tm = s.tm := rfl
@[simp] theorem State.setGuard_eng (s : State) (i : GuardIx) (g : GuardSlot) :
    (s.setGuard i g).eng = s.eng := rfl
@[simp] theorem State.setGuard_arr (s : State) (i : GuardIx) (g : GuardSlot) :
    (s.setGuard i g).arr = s.arr := rfl
@[simp] theorem State.setGuard_store (s : State) (i : GuardIx) (g : GuardSlot) :
    (s.setGuard i g).store = s.store := rfl
@[simp] theorem State.setGuard_settings (s : State) (i : GuardIx) (g : GuardSlot) :
    (s.setGuard i g).settings = s.settings := rfl
@[simp] theorem State.setGuard_cu (s : State) (i : GuardIx) (g : GuardSlot) :
    (s.setGuard i g).cu = s.cu := rfl
@[simp] theorem State.setGuard_win (s : State) (i : GuardIx) (g : GuardSlot) :
    (s.setGuard i g).win = s.win := rfl
@[simp] theorem State.setGuard_pins (s : State) (i : GuardIx) (g : GuardSlot) :
    (s.setGuard i g).pins = s.pins := rfl
@[simp] theorem State.setGuard_freeCount (s : State) (i : GuardIx) (g : GuardSlot) :
    (s.setGuard i g).freeCount = s.freeCount := rfl
@[simp] theorem State.setGuard_pending (s : State) (i : GuardIx) (g : GuardSlot) :
    (s.setGuard i g).pending = s.pending := rfl

/-! ### setPort -/

@[simp] theorem State.setPort_flash (s : State) (p : PortState) (b : Option Byte) :
    (s.setPort p b).flash = s.flash := rfl
@[simp] theorem State.setPort_sectors (s : State) (p : PortState) (b : Option Byte) :
    (s.setPort p b).sectors = s.sectors := rfl
@[simp] theorem State.setPort_dir (s : State) (p : PortState) (b : Option Byte) :
    (s.setPort p b).dir = s.dir := rfl
@[simp] theorem State.setPort_lw (s : State) (p : PortState) (b : Option Byte) :
    (s.setPort p b).lw = s.lw := rfl
@[simp] theorem State.setPort_tm (s : State) (p : PortState) (b : Option Byte) :
    (s.setPort p b).tm = s.tm := rfl
@[simp] theorem State.setPort_eng (s : State) (p : PortState) (b : Option Byte) :
    (s.setPort p b).eng = s.eng := rfl
@[simp] theorem State.setPort_arr (s : State) (p : PortState) (b : Option Byte) :
    (s.setPort p b).arr = s.arr := rfl
@[simp] theorem State.setPort_store (s : State) (p : PortState) (b : Option Byte) :
    (s.setPort p b).store = s.store := rfl
@[simp] theorem State.setPort_guards (s : State) (p : PortState) (b : Option Byte) :
    (s.setPort p b).guards = s.guards := rfl
@[simp] theorem State.setPort_settings (s : State) (p : PortState) (b : Option Byte) :
    (s.setPort p b).settings = s.settings := rfl
@[simp] theorem State.setPort_cu (s : State) (p : PortState) (b : Option Byte) :
    (s.setPort p b).cu = s.cu := rfl
@[simp] theorem State.setPort_pins (s : State) (p : PortState) (b : Option Byte) :
    (s.setPort p b).pins = s.pins := rfl
@[simp] theorem State.setPort_freeCount (s : State) (p : PortState) (b : Option Byte) :
    (s.setPort p b).freeCount = s.freeCount := rfl
@[simp] theorem State.setPort_pending (s : State) (p : PortState) (b : Option Byte) :
    (s.setPort p b).pending = s.pending := rfl

/-! ### afterWrite -/

@[simp] theorem State.afterWrite_flash (s : State) (f : Frame) :
    (s.afterWrite f).flash = s.flash := rfl
@[simp] theorem State.afterWrite_sectors (s : State) (f : Frame) :
    (s.afterWrite f).sectors = s.sectors := rfl
@[simp] theorem State.afterWrite_dir (s : State) (f : Frame) :
    (s.afterWrite f).dir = s.dir := rfl
@[simp] theorem State.afterWrite_lw (s : State) (f : Frame) :
    (s.afterWrite f).lw = s.lw := rfl
@[simp] theorem State.afterWrite_tm (s : State) (f : Frame) :
    (s.afterWrite f).tm = s.tm := rfl
@[simp] theorem State.afterWrite_eng (s : State) (f : Frame) :
    (s.afterWrite f).eng = s.eng := rfl
@[simp] theorem State.afterWrite_arr (s : State) (f : Frame) :
    (s.afterWrite f).arr = s.arr := rfl
@[simp] theorem State.afterWrite_store (s : State) (f : Frame) :
    (s.afterWrite f).store = s.store := rfl
@[simp] theorem State.afterWrite_guards (s : State) (f : Frame) :
    (s.afterWrite f).guards = s.guards := rfl
@[simp] theorem State.afterWrite_settings (s : State) (f : Frame) :
    (s.afterWrite f).settings = s.settings := rfl
@[simp] theorem State.afterWrite_cu (s : State) (f : Frame) :
    (s.afterWrite f).cu = s.cu := rfl
@[simp] theorem State.afterWrite_pins (s : State) (f : Frame) :
    (s.afterWrite f).pins = s.pins := rfl
@[simp] theorem State.afterWrite_freeCount (s : State) (f : Frame) :
    (s.afterWrite f).freeCount = s.freeCount := rfl
@[simp] theorem State.afterWrite_pending (s : State) (f : Frame) :
    (s.afterWrite f).pending = s.pending := rfl

/-! ### loadOutput -/

@[simp] theorem State.loadOutput_flash (s : State) (bs : List Byte) :
    (s.loadOutput bs).flash = s.flash := rfl
@[simp] theorem State.loadOutput_sectors (s : State) (bs : List Byte) :
    (s.loadOutput bs).sectors = s.sectors := rfl
@[simp] theorem State.loadOutput_dir (s : State) (bs : List Byte) :
    (s.loadOutput bs).dir = s.dir := rfl
@[simp] theorem State.loadOutput_lw (s : State) (bs : List Byte) :
    (s.loadOutput bs).lw = s.lw := rfl
@[simp] theorem State.loadOutput_tm (s : State) (bs : List Byte) :
    (s.loadOutput bs).tm = s.tm := rfl
@[simp] theorem State.loadOutput_eng (s : State) (bs : List Byte) :
    (s.loadOutput bs).eng = s.eng := rfl
@[simp] theorem State.loadOutput_arr (s : State) (bs : List Byte) :
    (s.loadOutput bs).arr = s.arr := rfl
@[simp] theorem State.loadOutput_store (s : State) (bs : List Byte) :
    (s.loadOutput bs).store = s.store := rfl
@[simp] theorem State.loadOutput_guards (s : State) (bs : List Byte) :
    (s.loadOutput bs).guards = s.guards := rfl
@[simp] theorem State.loadOutput_settings (s : State) (bs : List Byte) :
    (s.loadOutput bs).settings = s.settings := rfl
@[simp] theorem State.loadOutput_cu (s : State) (bs : List Byte) :
    (s.loadOutput bs).cu = s.cu := rfl
@[simp] theorem State.loadOutput_pins (s : State) (bs : List Byte) :
    (s.loadOutput bs).pins = s.pins := rfl
@[simp] theorem State.loadOutput_freeCount (s : State) (bs : List Byte) :
    (s.loadOutput bs).freeCount = s.freeCount := rfl
@[simp] theorem State.loadOutput_pending (s : State) (bs : List Byte) :
    (s.loadOutput bs).pending = s.pending := rfl

/-! ### setReset -/

@[simp] theorem State.setReset_flash (s : State) (b : Bool) :
    (s.setReset b).flash = s.flash := rfl
@[simp] theorem State.setReset_sectors (s : State) (b : Bool) :
    (s.setReset b).sectors = s.sectors := rfl
@[simp] theorem State.setReset_dir (s : State) (b : Bool) :
    (s.setReset b).dir = s.dir := rfl
@[simp] theorem State.setReset_lw (s : State) (b : Bool) :
    (s.setReset b).lw = s.lw := rfl
@[simp] theorem State.setReset_tm (s : State) (b : Bool) :
    (s.setReset b).tm = s.tm := rfl
@[simp] theorem State.setReset_eng (s : State) (b : Bool) :
    (s.setReset b).eng = s.eng := rfl
@[simp] theorem State.setReset_arr (s : State) (b : Bool) :
    (s.setReset b).arr = s.arr := rfl
@[simp] theorem State.setReset_store (s : State) (b : Bool) :
    (s.setReset b).store = s.store := rfl
@[simp] theorem State.setReset_guards (s : State) (b : Bool) :
    (s.setReset b).guards = s.guards := rfl
@[simp] theorem State.setReset_settings (s : State) (b : Bool) :
    (s.setReset b).settings = s.settings := rfl
@[simp] theorem State.setReset_cu (s : State) (b : Bool) :
    (s.setReset b).cu = s.cu := rfl
@[simp] theorem State.setReset_win (s : State) (b : Bool) :
    (s.setReset b).win = s.win := rfl
@[simp] theorem State.setReset_freeCount (s : State) (b : Bool) :
    (s.setReset b).freeCount = s.freeCount := rfl
@[simp] theorem State.setReset_pending (s : State) (b : Bool) :
    (s.setReset b).pending = s.pending := rfl

/-! ### setPfail -/

@[simp] theorem State.setPfail_flash (s : State) (b : Bool) :
    (s.setPfail b).flash = s.flash := rfl
@[simp] theorem State.setPfail_sectors (s : State) (b : Bool) :
    (s.setPfail b).sectors = s.sectors := rfl
@[simp] theorem State.setPfail_dir (s : State) (b : Bool) :
    (s.setPfail b).dir = s.dir := rfl
@[simp] theorem State.setPfail_lw (s : State) (b : Bool) :
    (s.setPfail b).lw = s.lw := rfl
@[simp] theorem State.setPfail_tm (s : State) (b : Bool) :
    (s.setPfail b).tm = s.tm := rfl
@[simp] theorem State.setPfail_eng (s : State) (b : Bool) :
    (s.setPfail b).eng = s.eng := rfl
@[simp] theorem State.setPfail_arr (s : State) (b : Bool) :
    (s.setPfail b).arr = s.arr := rfl
@[simp] theorem State.setPfail_store (s : State) (b : Bool) :
    (s.setPfail b).store = s.store := rfl
@[simp] theorem State.setPfail_guards (s : State) (b : Bool) :
    (s.setPfail b).guards = s.guards := rfl
@[simp] theorem State.setPfail_settings (s : State) (b : Bool) :
    (s.setPfail b).settings = s.settings := rfl
@[simp] theorem State.setPfail_cu (s : State) (b : Bool) :
    (s.setPfail b).cu = s.cu := rfl
@[simp] theorem State.setPfail_win (s : State) (b : Bool) :
    (s.setPfail b).win = s.win := rfl
@[simp] theorem State.setPfail_freeCount (s : State) (b : Bool) :
    (s.setPfail b).freeCount = s.freeCount := rfl
@[simp] theorem State.setPfail_pending (s : State) (b : Bool) :
    (s.setPfail b).pending = s.pending := rfl

/-! ### setVcc -/

@[simp] theorem State.setVcc_flash (s : State) (b : Bool) :
    (s.setVcc b).flash = s.flash := rfl
@[simp] theorem State.setVcc_sectors (s : State) (b : Bool) :
    (s.setVcc b).sectors = s.sectors := rfl
@[simp] theorem State.setVcc_dir (s : State) (b : Bool) :
    (s.setVcc b).dir = s.dir := rfl
@[simp] theorem State.setVcc_lw (s : State) (b : Bool) :
    (s.setVcc b).lw = s.lw := rfl
@[simp] theorem State.setVcc_tm (s : State) (b : Bool) :
    (s.setVcc b).tm = s.tm := rfl
@[simp] theorem State.setVcc_eng (s : State) (b : Bool) :
    (s.setVcc b).eng = s.eng := rfl
@[simp] theorem State.setVcc_arr (s : State) (b : Bool) :
    (s.setVcc b).arr = s.arr := rfl
@[simp] theorem State.setVcc_store (s : State) (b : Bool) :
    (s.setVcc b).store = s.store := rfl
@[simp] theorem State.setVcc_guards (s : State) (b : Bool) :
    (s.setVcc b).guards = s.guards := rfl
@[simp] theorem State.setVcc_settings (s : State) (b : Bool) :
    (s.setVcc b).settings = s.settings := rfl
@[simp] theorem State.setVcc_cu (s : State) (b : Bool) :
    (s.setVcc b).cu = s.cu := rfl
@[simp] theorem State.setVcc_win (s : State) (b : Bool) :
    (s.setVcc b).win = s.win := rfl
@[simp] theorem State.setVcc_freeCount (s : State) (b : Bool) :
    (s.setVcc b).freeCount = s.freeCount := rfl
@[simp] theorem State.setVcc_pending (s : State) (b : Bool) :
    (s.setVcc b).pending = s.pending := rfl

/-! ### resetBlocks -/

@[simp] theorem State.resetBlocks_flash (s : State) (b : Bool) :
    (s.resetBlocks b).flash = s.flash := rfl
@[simp] theorem State.resetBlocks_pins (s : State) (b : Bool) :
    (s.resetBlocks b).pins = s.pins := rfl
@[simp] theorem State.resetBlocks_freeCount (s : State) (b : Bool) :
    (s.resetBlocks b).freeCount = s.freeCount := rfl
@[simp] theorem State.resetBlocks_pending (s : State) (b : Bool) :
    (s.resetBlocks b).pending = s.pending := rfl

/-! ### What the updates set -/

@[simp] theorem State.raise_faults (s : State) (i : Indication) :
    (s.raise i).win.faults = s.win.faults ||| i.mask := rfl

@[simp] theorem State.raise_intEnable (s : State) (i : Indication) :
    (s.raise i).win.intEnable = s.win.intEnable := rfl

@[simp] theorem State.raise_input (s : State) (i : Indication) : (s.raise i).win.input = s.win.input := rfl

@[simp] theorem State.raise_port (s : State) (i : Indication) : (s.raise i).win.port = s.win.port := rfl

theorem vector_get_set {α : Type} {n : Nat} (v : Vector α n) (i : Fin n) (x : α) (j : Fin n) :
    (v.set i.val x i.isLt).get j = if j = i then x else v.get j := by
  show (v.set i.val x i.isLt)[j.val] = if j = i then x else v[j.val]
  rw [Vector.getElem_set]
  by_cases h : j = i
  · subst h; simp
  · rw [if_neg (fun e => h (Fin.ext e.symm)), if_neg h]

@[simp] theorem State.modSector_get (s : State) (i : SectorIx) (f : SectorEntry → SectorEntry) (j : SectorIx) :
    (s.modSector i f).sector j = if j = i then f (s.sector i) else s.sector j := by
  exact vector_get_set s.sectors i _ j

@[simp] theorem State.dequeue_queue (s : State) : s.dequeue.cu.queue = s.cu.queue.tail := rfl

@[simp] theorem State.dequeue_completions (s : State) : s.dequeue.cu.completions = s.cu.completions := rfl

@[simp] theorem State.post_completions (s : State) (c : Completion) :
    (s.post c).cu.completions = s.cu.completions ++ [c] := rfl

@[simp] theorem State.post_inFlight (s : State) (c : Completion) : (s.post c).cu.inFlight = s.cu.inFlight := rfl

@[simp] theorem State.launch_inFlight (s : State) (e : CmdEntry) :
    (s.launch e).cu.inFlight = s.cu.inFlight ++ [(e.code, e.tag)] := rfl

@[simp] theorem State.setStaging_staging (s : State) (l : List Staged) : (s.setStaging l).tm.staging = l := rfl

@[simp] theorem State.setCommit_commit (s : State) (f : Option CommitFlight) : (s.setCommit f).tm.commit = f := rfl

@[simp] theorem State.setCommit_staging (s : State) (f : Option CommitFlight) :
    (s.setCommit f).tm.staging = s.tm.staging := rfl

@[simp] theorem State.holdStaging_staging (s : State) : s.holdStaging.tm.staging = s.tm.staging := rfl

@[simp] theorem State.setEngine_st (s : State) (x : EngineState) : (s.setEngine x).eng.st = x := rfl

@[simp] theorem State.setScan_scan (s : State) (c : MountScan) : (s.setScan c).store.scan = c := rfl

@[simp] theorem State.setFormat_format (s : State) (f : FormatFlight) : (s.setFormat f).store.format = some f := rfl

@[simp] theorem State.setGuard_get (s : State) (i : GuardIx) (g : GuardSlot) (j : GuardIx) :
    (s.setGuard i g).guards.get j = if j = i then g else s.guards.get j := by
  exact vector_get_set s.guards i g j

@[simp] theorem State.setPort_port (s : State) (p : PortState) (b : Option Byte) : (s.setPort p b).win.port = p := rfl

@[simp] theorem State.setPort_sdo (s : State) (p : PortState) (b : Option Byte) : (s.setPort p b).win.sdo = b := rfl

@[simp] theorem State.setPort_faults (s : State) (p : PortState) (b : Option Byte) :
    (s.setPort p b).win.faults = s.win.faults := rfl

@[simp] theorem State.setReset_resetLow (s : State) (b : Bool) : (s.setReset b).pins.resetLow = b := rfl

@[simp] theorem State.setPfail_pfailLow (s : State) (b : Bool) : (s.setPfail b).pins.pfailLow = b := rfl

@[simp] theorem State.setVcc_vccInRange (s : State) (b : Bool) : (s.setVcc b).pins.vccInRange = b := rfl

end Sys2Proof.Machine
end

