-- ==== Sys2Proof/Laws/Inner.lean ====
section
/-! SUPPORT. What the internal happenings of a step may change, and what they may not. -/

namespace Sys2Proof.Machine

set_option Elab.async false

/-- What the Store Controller's own work leaves unchanged: the array, the pins, the command queue and the parameter
locations, the buffers and the port, fixed guard slots; indications are only raised, settings stay in range, the staging
list is kept or emptied, and a completion is posted only as a background command ends. -/
structure Outer (s t : State) : Prop where
  flash : t.flash = s.flash
  pins : t.pins = s.pins
  pending : t.pending = s.pending
  win : t.win = { s.win with faults := t.win.faults }
  faults : faultsKept s t
  cu : t.cu = { s.cu with inFlight := t.cu.inFlight, completions := t.cu.completions }
  places : t.cu.completions.length + t.cu.inFlight.length = s.cu.completions.length + s.cu.inFlight.length
  guards : fixedKept s t
  settings : s.settings.inRange → t.settings.inRange
  staging : t.tm.staging = s.tm.staging ∨ t.tm.staging = []

/-- What no internal happening but a grant changes; outside MOUNTED the Store Controller stands as well. -/
structure Inner (s t : State) : Prop extends Outer s t where
  store : s.store.st ≠ .mounted → t.store = s.store

theorem faultsKept_refl (s : State) : faultsKept s s := BitVec.and_self

theorem faultsKept_of_eq {s t : State} (h : t.win = s.win) : faultsKept s t := by
  unfold faultsKept; rw [h]; exact BitVec.and_self

theorem faultsKept_trans {s t u : State} (h1 : faultsKept s t) (h2 : faultsKept t u) : faultsKept s u := by
  unfold faultsKept at *
  rw [← h1, BitVec.and_assoc, h2]

/-- A change of none of the fields that matter. -/
theorem Outer.same {s t : State} (hf : t.flash = s.flash := by rfl) (hp : t.pins = s.pins := by rfl)
    (hq : t.pending = s.pending := by rfl) (hw : t.win = s.win := by rfl) (hc : t.cu = s.cu := by rfl)
    (hg : t.guards = s.guards := by rfl) (hs : t.settings = s.settings := by rfl)
    (ht : t.tm.staging = s.tm.staging := by rfl) : Outer s t where
  flash := hf
  pins := hp
  pending := hq
  win := by rw [hw]
  faults := faultsKept_of_eq hw
  cu := by rw [hc]
  places := by rw [hc]
  guards := fun i _ => by rw [hg]
  settings := fun h => by rw [hs]; exact h
  staging := .inl ht

/-- A change that empties the staging list and none of the other fields that matter. -/
theorem Outer.emptied {s t : State} (hf : t.flash = s.flash := by rfl) (hp : t.pins = s.pins := by rfl)
    (hq : t.pending = s.pending := by rfl) (hw : t.win = s.win := by rfl) (hc : t.cu = s.cu := by rfl)
    (hg : t.guards = s.guards := by rfl) (hs : t.settings = s.settings := by rfl)
    (ht : t.tm.staging = [] := by rfl) : Outer s t where
  flash := hf
  pins := hp
  pending := hq
  win := by rw [hw]
  faults := faultsKept_of_eq hw
  cu := by rw [hc]
  places := by rw [hc]
  guards := fun i _ => by rw [hg]
  settings := fun h => by rw [hs]; exact h
  staging := .inr ht

theorem Outer.refl (s : State) : Outer s s := .same

theorem Outer.trans {s t u : State} (h1 : Outer s t) (h2 : Outer t u) : Outer s u where
  flash := h2.flash.trans h1.flash
  pins := h2.pins.trans h1.pins
  pending := h2.pending.trans h1.pending
  win := by rw [h2.win, h1.win]
  faults := faultsKept_trans h1.faults h2.faults
  cu := by rw [h2.cu, h1.cu]
  places := h2.places.trans h1.places
  guards := fun i hi => by
    have e := h1.guards i hi
    rw [h2.guards i (by rw [e]; exact hi), e]
  settings := fun h => h2.settings (h1.settings h)
  staging := by
    rcases h2.staging with e | e
    · rw [e]; exact h1.staging
    · exact .inr e

/-- A change of none of the fields that matter. -/
theorem Inner.same {s t : State} (hf : t.flash = s.flash := by rfl) (hp : t.pins = s.pins := by rfl)
    (hq : t.pending = s.pending := by rfl) (hw : t.win = s.win := by rfl) (hc : t.cu = s.cu := by rfl)
    (hg : t.guards = s.guards := by rfl) (hs : t.settings = s.settings := by rfl)
    (ht : t.tm.staging = s.tm.staging := by rfl) (hst : t.store = s.store := by rfl) : Inner s t :=
  ⟨.same hf hp hq hw hc hg hs ht, fun _ => hst⟩

/-- A change that empties the staging list and none of the other fields that matter. -/
theorem Inner.emptied {s t : State} (hf : t.flash = s.flash := by rfl) (hp : t.pins = s.pins := by rfl)
    (hq : t.pending = s.pending := by rfl) (hw : t.win = s.win := by rfl) (hc : t.cu = s.cu := by rfl)
    (hg : t.guards = s.guards := by rfl) (hs : t.settings = s.settings := by rfl)
    (ht : t.tm.staging = [] := by rfl) (hst : t.store = s.store := by rfl) : Inner s t :=
  ⟨.emptied hf hp hq hw hc hg hs ht, fun _ => hst⟩

theorem Inner.refl (s : State) : Inner s s := .same

theorem Inner.trans {s t u : State} (h1 : Inner s t) (h2 : Inner t u) : Inner s u :=
  ⟨h1.toOuter.trans h2.toOuter, fun h => by rw [h2.store (by rw [h1.store h]; exact h), h1.store h]⟩

/-! ### Small updates -/

theorem inner_raise (s : State) (i : Indication) : Inner s (s.raise i) :=
  { Inner.same (s := s) (t := s) with
    win := rfl
    faults := by
      show s.win.faults &&& (s.win.faults ||| i.mask) = s.win.faults
      ext k hk
      simp only [BitVec.getElem_and, BitVec.getElem_or]
      cases s.win.faults[k] <;> simp
    cu := rfl }

theorem inner_raiseIf (s : State) (b : Bool) (i : Indication) : Inner s (s.raiseIf b i) := by
  unfold State.raiseIf
  split
  · exact inner_raise s i
  · exact .refl s

theorem inner_modSector (s : State) (i : SectorIx) (f : SectorEntry → SectorEntry) : Inner s (s.modSector i f) :=
  .same

theorem length_dropFlight (l : List (Byte × Byte)) (code : Byte) (h : (l.find? (fun p => decide (p.1 = code))).isSome) :
    (dropFlight l code).length + 1 = l.length := by
  induction l with
  | nil => simp at h
  | cons p rest ih =>
    rw [dropFlight]
    split
    · simp
    · rename_i hp
      simp only [List.find?_cons, hp, decide_false] at h
      simp only [List.length_cons]
      exact congrArg (· + 1) (ih h)

theorem inner_finish (s : State) (code : Byte) (st : Status) (a b c : Nat) : Inner s (s.finish code st a b c) := by
  unfold State.finish
  split
  · exact .refl s
  · rename_i p hp
    refine { Inner.same (s := s) (t := s) with cu := rfl, places := ?_, win := rfl }
    have := length_dropFlight s.cu.inFlight code (by rw [hp]; rfl)
    simp only [List.length_append, List.length_cons, List.length_nil]
    omega

theorem inner_place (s : State) (x : SlotId) (op : ArrayOp) : Inner s (s.place x op).1 := by
  unfold State.place
  split
  · exact .refl s
  · exact .same

theorem inner_takeSeq (s : State) (k : Nat) : Inner s (s.takeSeq k).2 := by
  unfold State.takeSeq
  split
  · exact .same
  · exact .refl s

/-! ### The Log Writer -/

theorem inner_refuseCurrent (s : State) (st : Status) : Inner s (s.refuseCurrent st).1 := by
  unfold State.refuseCurrent
  split
  · exact .refl s
  · exact .same

theorem inner_requestLine (s : State) (cur : InProgress) (loc : Loc) : Inner s (s.requestLine cur loc).1 := by
  unfold State.requestLine
  simp only
  generalize hs : ({ s.modSector loc.sector SectorEntry.addDead with lw := _ } : State) = s1
  have h1 : Inner s s1 := by subst hs; exact .same
  have h2 := inner_place s1 .l (.program loc.sector (loc.line + cur.done) (cur.record.lineData cur.done))
  split
  · rename_i s2 e
    rw [e] at h2
    exact h1.trans h2
  · rename_i s2 st e
    rw [e] at h2
    exact (h1.trans h2).trans (inner_refuseCurrent _ _)

theorem inner_placeRecord (s : State) (cur : InProgress) (p : AppendPoint) : Inner s (s.placeRecord cur p).1 := by
  unfold State.placeRecord
  simp only
  split
  · exact (inner_modSector s p.sector _).trans (inner_requestLine _ _ _)
  · exact inner_requestLine _ _ _

theorem inner_beginOpening (s : State) (cur : Option InProgress) (early : Bool) :
    Inner s (s.beginOpening cur early).1 := by
  unfold State.beginOpening
  split
  · split <;> exact .same
  · rename_i k hk
    simp only
    generalize hs : ({ s with lw := _ } : State) = s1
    have h1 : Inner s s1 := by subst hs; exact .same
    have h2 := inner_place s1 .l (.program k 1 (openStampLine s.lw.actCtr s.lw.seqCtr))
    split
    · rename_i s2 e
      rw [e] at h2
      exact h1.trans h2
    · rename_i s2 st e
      rw [e] at h2
      exact ((h1.trans h2).trans .same).trans (inner_refuseCurrent _ _)

theorem inner_beginRecord (s : State) (cur : InProgress) : Inner s (s.beginRecord cur).1 := by
  unfold State.beginRecord
  split
  · split
    · exact inner_placeRecord _ _ _
    · exact inner_beginOpening _ _ _
  · exact inner_beginOpening _ _ _

theorem inner_serveStream (s : State) (x : Stream) (r : Record) : Inner s (s.serveStream x r).1 := by
  unfold State.serveStream
  cases x
  · exact Inner.trans .same (inner_beginRecord _ _)
  · exact Inner.trans .same (inner_beginRecord _ _)

theorem inner_serve (s : State) : Inner s s.serve.1 := by
  unfold State.serve
  split
  · split
    · exact .refl s
    · exact inner_serveStream _ _ _
    · exact inner_serveStream _ _ _
    · split <;> exact inner_serveStream _ _ _
  · exact .refl s

theorem inner_offer (s : State) (x : Stream) (r : Record) : Inner s (s.offer x r).1 := by
  unfold State.offer
  split
  · cases x <;> exact .same
  · exact .refl s

theorem inner_linePassed (s : State) (cur : InProgress) (loc : Loc) : Inner s (s.linePassed cur loc).1 := by
  unfold State.linePassed
  simp only
  split
  · exact .same
  · split
    · exact inner_refuseCurrent _ _
    · exact inner_requestLine _ _ _

theorem inner_lineFailed (s : State) (cur : InProgress) : Inner s (s.lineFailed cur).1 := by
  unfold State.lineFailed
  simp only
  refine (inner_raise s .programFault).trans ?_
  split
  · exact inner_refuseCurrent _ _
  · split
    · exact inner_beginOpening _ _ _
    · exact Inner.trans .same (inner_beginOpening _ _ _)

theorem inner_strayEnded (s : State) (v : Verify) : Inner s (s.strayEnded v).1 := inner_raiseIf s _ _

theorem inner_lineEnded (s : State) (v : Verify) : Inner s (s.lineEnded v).1 := by
  unfold State.lineEnded
  split
  · exact inner_strayEnded s v
  · split
    · exact .refl s
    · cases v
      · exact inner_linePassed _ _ _
      · exact inner_lineFailed _ _

theorem inner_afterOpening (s : State) (p : AppendPoint) : Inner s (s.afterOpening p).1 := by
  unfold State.afterOpening
  split
  · exact .refl s
  · split
    · exact inner_placeRecord _ _ _
    · exact inner_refuseCurrent _ _

theorem inner_sealOld (s : State) (early : Bool) : Inner s (s.sealOld early) := by
  unfold State.sealOld
  split
  · exact .refl s
  · simp only
    split
    · split <;> exact .same
    · exact .same

theorem inner_openingEnded (s : State) (v : Verify) : Inner s (s.openingEnded v).1 := by
  unfold State.openingEnded
  split
  · exact inner_strayEnded s v
  · rename_i o ho
    cases v
    · exact ((inner_sealOld s o.early).trans .same).trans (inner_afterOpening _ _)
    · simp only
      refine (inner_raise s .programFault).trans ?_
      split
      · exact Inner.trans .same (inner_beginOpening _ _ _)
      · exact Inner.trans .same (inner_refuseCurrent _ _)

theorem inner_writerRefused (s : State) (st : Status) : Inner s (s.writerRefused st).1 :=
  Inner.trans .same (inner_refuseCurrent _ _)

theorem inner_refuseReady (s : State) (st : Status) : Inner s (s.refuseReady st).1 := .same

end Sys2Proof.Machine
end

