-- ==== Sys2Proof/Laws/InnerTxn.lean ====
section
/-! SUPPORT. The happenings of the directory, the Transaction Manager, the Reclaim Engine and the cascade are inner
ones. -/

namespace Sys2Proof.Machine

set_option Elab.async false

/-! ### Accounting and the directory -/

theorem inner_giveUp (s : State) (i : SectorIx) (n : Nat) : Inner s (s.giveUp i n) := by
  unfold State.giveUp
  simp only
  split <;> exact .same

theorem inner_takeRecord (s : State) (k : Key) (p : Bool) (l : Loc) (n len seq : Nat) :
    Inner s (s.takeRecord k p l n len seq) := by
  unfold State.takeRecord
  cases s.entry k with
  | none => exact .same
  | some old => exact (inner_giveUp s _ _).trans .same

theorem inner_relocate (s : State) (k : Key) (seq : Nat) (x : Loc) : Inner s (s.relocate k seq x) := by
  unfold State.relocate
  split
  · exact .refl s
  · split
    · exact (inner_giveUp s _ _).trans .same
    · split
      · exact .same
      · exact .refl s

theorem inner_removeEntry (s : State) (e : DirEntry) : Inner s (s.removeEntry e) :=
  (inner_giveUp s _ _).trans .same

theorem inner_dropTombstone (s : State) (k : Key) (seq : Nat) : Inner s (s.dropTombstone k seq) := by
  unfold State.dropTombstone
  split
  · split
    · exact inner_removeEntry _ _
    · exact .refl s
  · exact .refl s

theorem inner_loseRecord (s : State) (k : Key) (seq : Nat) : Inner s (s.loseRecord k seq) := by
  unfold State.loseRecord
  split
  · split
    · exact inner_removeEntry _ _
    · exact .refl s
  · exact .refl s

/-! ### The Transaction Manager -/

theorem inner_commitFail (s : State) (st : Status) : Inner s (s.commitFail st) := by
  unfold State.commitFail
  split
  · exact .refl s
  · exact Inner.trans .same (inner_finish _ _ _ _ _ _)

theorem inner_settingsFail (s : State) (st : Status) : Inner s (s.settingsFail st) := by
  unfold State.settingsFail
  split
  · exact .refl s
  · exact Inner.trans .same (inner_finish _ _ _ _ _ _)

theorem inner_takeCommit (s : State) (ops : List Staged) (ls : List Loc) (seq : Nat) :
    Inner s (s.takeCommit ops ls seq) := by
  induction ops generalizing s ls seq with
  | nil => unfold State.takeCommit; exact .refl s
  | cons op rest ih =>
    cases ls with
    | nil => unfold State.takeCommit; exact .refl s
    | cons l ls => exact (inner_takeRecord s _ _ _ _ _ _).trans (ih _ _ _)

theorem inner_commitComplete (s : State) (f : CommitFlight) : Inner s (s.commitComplete f) := by
  unfold State.commitComplete
  simp only
  refine (inner_takeCommit s s.tm.staging f.written f.first).trans ?_
  generalize s.takeCommit s.tm.staging f.written f.first = u
  exact Inner.trans .emptied (inner_finish _ _ _ _ _ _)

theorem inner_settingsComplete (s : State) (f : SettingsFlight) (l : Loc) : Inner s (s.settingsComplete f l) := by
  unfold State.settingsComplete
  simp only
  refine (inner_takeRecord s Config.settingsKey true l (linesFor f.payload.length) f.payload.length f.seq).trans ?_
  generalize s.takeRecord Config.settingsKey true l (linesFor f.payload.length) f.payload.length f.seq = u
  exact Inner.trans .same (inner_finish _ _ _ _ _ _)

theorem inner_commitWritten (s : State) (l : Loc) : Inner s (s.commitWritten l).1 := by
  unfold State.commitWritten
  split
  · simp only
    split
    · exact Inner.trans .same (inner_commitComplete _ _)
    · exact .same
  · split
    · exact inner_settingsComplete _ _ _
    · exact .refl s

theorem inner_commitRefused (s : State) (st : Status) : Inner s (s.commitRefused st).1 := by
  unfold State.commitRefused
  split
  · exact inner_commitFail _ _
  · exact inner_settingsFail _ _

theorem inner_offerCommit (s : State) (f : CommitFlight) : Inner s (s.offerCommit f).1 :=
  Inner.trans .same (inner_offer _ _ _)

theorem inner_failSettingsWaiter (s : State) (st : Status) :
    Inner s (match s.tm.settings with
      | some f => if f.phase = .waitingSpace then s.settingsFail st else s
      | none => s) := by
  split
  · split
    · exact inner_settingsFail _ _
    · exact .refl _
  · exact .refl _

theorem inner_failWaiter (s : State) (st : Status) : Inner s (s.failWaiter st) := by
  unfold State.failWaiter
  refine Inner.trans ?_ (inner_failSettingsWaiter _ st)
  split
  · split
    · exact inner_commitFail _ _
    · exact .refl s
  · exact .refl s

theorem inner_notGranted (s : State) : Inner s s.notGranted.1 := by
  unfold State.notGranted
  split
  · exact inner_failWaiter _ _
  · exact .refl s

theorem inner_commitGranted (s : State) (f : CommitFlight) : Inner s (s.commitGranted f).1 := by
  unfold State.commitGranted
  have h := Inner.trans (s := s) (t := s.reserveCommit f.amount) .same
    (inner_takeSeq (s.reserveCommit f.amount) (recordsOf f.n))
  split
  · rename_i s1 e
    rw [e] at h
    exact h
  · rename_i first s1 e
    rw [e] at h
    split
    · exact h.trans (inner_offerCommit _ _)
    · exact (h.trans .same).trans (inner_offerCommit _ _)

theorem inner_settingsGranted (s : State) (f : SettingsFlight) : Inner s (s.settingsGranted f).1 := by
  unfold State.settingsGranted
  have h := Inner.trans (s := s) (t := s.reserveCommit settingsAmount) .same
    (inner_takeSeq (s.reserveCommit settingsAmount) 1)
  split
  · rename_i s1 e
    rw [e] at h
    exact h
  · rename_i seq s1 e
    rw [e] at h
    exact (h.trans .same).trans (inner_offer _ _ _)

theorem inner_requestSpace (s : State) : Inner s s.requestSpace.1 := by
  unfold State.requestSpace
  split
  · split
    · split
      · exact inner_commitGranted _ _
      · exact inner_notGranted _
    · exact .refl s
  · split
    · split
      · split
        · exact inner_settingsGranted _ _
        · exact inner_notGranted _
      · exact .refl s
    · exact .refl s

/-! ### The Reclaim Engine -/

theorem inner_retireDone (s : State) (i : SectorIx) (loc : Option Loc) (refusal : Option Status) :
    Inner s (s.retireDone i loc refusal).1 := by
  unfold State.retireDone
  simp only
  have h : Inner s ((s.modSector i (SectorEntry.toRetired loc)).raise .sectorRetired) :=
    (inner_modSector s i _).trans (inner_raise _ _)
  cases loc with
  | none => exact h
  | some l => exact h.trans (inner_modSector _ _ _)

theorem inner_askRetiring (s : State) :
    Inner s (if s.reclaimRoom Config.passMargin then s.reserveReclaim Config.passMargin else s) := by
  split <;> exact .same

theorem inner_beginRetiring (s : State) (i : SectorIx) (cause : RetireCause) :
    Inner s (s.beginRetiring i cause).1 := by
  unfold State.beginRetiring
  simp only
  generalize hs : ({ s with eng := _ } : State) = s1
  have h1 : Inner s s1 := by subst hs; exact .same
  have h3 := (h1.trans (inner_askRetiring s1)).trans (inner_takeSeq _ 1)
  split
  · rename_i s3 e
    rw [e] at h3
    exact h3.trans (t := s3) (inner_retireDone s3 i none (some .readOnly))
  · rename_i n s3 e
    rw [e] at h3
    exact h3.trans (inner_offer _ _ _)

theorem inner_beginErasing (s : State) (i : SectorIx) : Inner s (s.beginErasing i).1 := by
  unfold State.beginErasing
  have h := Inner.trans (s := s) (t := (s.setEngine .erasing).modSector i SectorEntry.toErasing) .same
    (inner_place ((s.setEngine .erasing).modSector i SectorEntry.toErasing) .c (.erase i))
  split
  · rename_i s1 e
    rw [e] at h
    exact h
  · rename_i s1 st e
    rw [e] at h
    exact h.trans (inner_modSector _ _ _)

theorem inner_eraseOrRetire (s : State) (i : SectorIx) : Inner s (s.eraseOrRetire i).1 := by
  unfold State.eraseOrRetire
  split
  · exact inner_beginRetiring _ _ _
  · exact inner_beginErasing _ _

theorem inner_eraseEnded (s : State) (i : SectorIx) (v : Verify) : Inner s (s.eraseEnded i v).1 := by
  unfold State.eraseEnded
  cases v with
  | passed =>
    simp only
    have h := Inner.trans (s := s) (t := (s.modSector i SectorEntry.raiseCount).setEngine .stamping) .same
      (inner_place ((s.modSector i SectorEntry.raiseCount).setEngine .stamping) .c
        (.program i 0 (eraseStampLine s.store.generation ((s.modSector i SectorEntry.raiseCount).sector i).eraseCount)))
    split
    · rename_i s2 e
      rw [e] at h
      exact h
    · rename_i s2 st e
      rw [e] at h
      exact h.trans (inner_modSector _ _ _)
  | failed => exact ((inner_modSector s i _).trans (inner_raise _ _)).trans (inner_beginRetiring _ _ _)

theorem inner_stampEnded (s : State) (i : SectorIx) (v : Verify) : Inner s (s.stampEnded i v).1 := by
  cases v with
  | passed => exact inner_modSector _ _ _
  | failed => exact (inner_modSector s i _).trans (inner_raise _ _)

theorem inner_walk (s : State) (v : SectorIx) : Inner s (s.walk v).1 := by
  unfold State.walk
  split
  · exact .refl s
  · split
    · exact inner_place _ _ _
    · have h := inner_takeSeq s 1
      split
      · rename_i s1 e
        rw [e] at h
        exact h
      · rename_i n s1 e
        rw [e] at h
        exact (h.trans .same).trans (inner_offer _ _ _)

theorem inner_walkRecord (s : State) (l : Loc) (r : Record) : Inner s (s.walkRecord l r).1 := by
  unfold State.walkRecord
  split
  · exact inner_offer _ _ _
  · split
    · exact ((inner_dropTombstone s _ _).trans .same).trans (inner_walk _ _)
    · exact Inner.trans .same (inner_walk _ _)

theorem inner_dropRetireLoc (s : State) (l : Loc) (named : SectorIx) :
    Inner s (if (s.sector named).retireLoc = some l then
        (s.modSector named (fun e => { e with retireLoc := none })).modSector l.sector (SectorEntry.giveLines 1)
      else s) := by
  split <;> exact .same

theorem inner_advance (s : State) (p : Nat) : Inner s (s.advance p) := .same

theorem inner_walkLost (s : State) (l : Loc) : Inner s (s.walkLost l).1 := by
  unfold State.walkLost
  split
  · exact (((inner_loseRecord s _ _).trans (inner_raise _ _)).trans (inner_advance _ _)).trans (inner_walk _ _)
  · rename_i named h
    exact (((inner_dropRetireLoc s l named).trans (inner_raise _ _)).trans (inner_advance _ _)).trans
      (inner_walk _ _)
  · exact (inner_advance _ _).trans (inner_walk _ _)

theorem inner_walkRead (s : State) (v : SectorIx) (rr : ReadResult) : Inner s (s.walkRead v rr).1 := by
  unfold State.walkRead
  simp only
  split
  · exact Inner.trans .same (inner_walk _ _)
  · split
    · exact inner_walkRecord _ _ _
    · split
      · exact Inner.trans .same (inner_walk _ _)
      · exact inner_walkLost _ _

theorem inner_takeCopy (s : State) (v : SectorIx) (l : Loc) (r : Record) (x : Loc) :
    Inner s (match r.kind with
    | .value => s.relocate r.key r.seq x
    | .tombstone => s.relocate r.key r.seq x
    | .retire =>
      match s.retiredAt l with
      | some named =>
        ((s.modSector named (fun e => { e with retireLoc := some x })).modSector x.sector
          (SectorEntry.takeLines 1)).modSector v (SectorEntry.giveLines 1)
      | none => s
    | _ => s) := by
  split
  · exact inner_relocate _ _ _ _
  · exact inner_relocate _ _ _ _
  · split
    · exact .same
    · exact .refl _
  · exact .refl _

theorem inner_copyWritten (s : State) (v : SectorIx) (r : Record) (x : Loc) : Inner s (s.copyWritten v r x).1 := by
  unfold State.copyWritten
  refine Inner.trans ?_ (Inner.trans (inner_advance _ _) (inner_walk _ _))
  exact Inner.trans (.same (t := { s with eng := { s.eng with
    copyCount := s.eng.copyCount + 1, copiedLines := s.eng.copiedLines + r.lines } }))
    (inner_takeCopy _ v { sector := v, line := s.eng.cursor } r x)

theorem inner_reclaimWritten (s : State) (r : Record) (x : Loc) : Inner s (s.reclaimWritten r x).1 := by
  unfold State.reclaimWritten
  split
  · exact .refl s
  · split
    · exact Inner.trans .same (inner_walk _ _)
    · exact inner_copyWritten _ _ _ _
    · simp only
      split
      · exact inner_modSector _ _ _
      · exact (inner_modSector s _ _).trans (inner_eraseOrRetire _ _)
    · exact inner_retireDone _ _ _ _
    · exact .refl s

theorem inner_reclaimRefused (s : State) (st : Status) : Inner s (s.reclaimRefused st).1 := by
  unfold State.reclaimRefused
  split
  · exact .refl s
  · split
    · exact .refl s
    · exact .refl s
    · exact .refl s
    · exact inner_retireDone _ _ _ _
    · exact .refl s

theorem inner_engineRefused (s : State) (st : Status) : Inner s (s.engineRefused st).1 := by
  unfold State.engineRefused
  split
  · exact .refl s
  · split
    · exact inner_modSector _ _ _
    · exact inner_modSector _ _ _
    · exact .refl s

theorem inner_startUnit (s : State) (k : UnitKind) (i : SectorIx) (o : Owner) : Inner s (s.startUnit k i o).1 := by
  unfold State.startUnit
  cases k with
  | pendingErase => exact Inner.trans .same (inner_eraseOrRetire _ _)
  | resumedPass => exact Inner.trans .same (inner_walk _ _)
  | pass =>
    simp only
    generalize hs : ({ s.reserveReclaim (s.passAmount i) with eng := _ } : State) = s1
    have h1 : Inner s s1 := by subst hs; exact .same
    have h := h1.trans (inner_takeSeq s1 1)
    split
    · rename_i s2 e
      rw [e] at h
      exact h
    · rename_i n s2 e
      rw [e] at h
      exact h.trans (inner_offer _ _ _)

theorem inner_setStalled (s : State) : Inner s s.setStalled :=
  (inner_raiseIf s _ _).trans .same

theorem inner_stallIf (s : State) (b : Bool) : Inner s (if b then s.setStalled else s) := by
  split
  · exact inner_setStalled s
  · exact .refl s

theorem inner_noUnit (s : State) : Inner s s.noUnit := by
  unfold State.noUnit
  have h := inner_stallIf s (s.automaticReason || s.waitingReason)
  simp only
  split
  · exact h.trans (inner_failWaiter _ _)
  · exact h

theorem inner_lookForWork (s : State) : Inner s s.lookForWork.1 := by
  unfold State.lookForWork
  split
  · split
    · exact inner_startUnit _ _ _ _
    · exact inner_noUnit _
  · exact .refl s

theorem inner_stallAtEnd (s : State) (v : SectorIx) (b : Bool) : Inner s (s.stallAtEnd v b) := by
  unfold State.stallAtEnd
  split
  · exact .same
  · split
    · exact inner_setStalled s
    · exact .refl s

theorem inner_afterUnit (s : State) : Inner s s.afterUnit.1 := by
  unfold State.afterUnit
  split
  · split
    · exact .same
    · exact .refl s
  · exact .refl s

theorem inner_postUnit (s : State) (o : Owner) (st : Status) (a b c : Nat) :
    Inner s (match o with
      | .automatic => s
      | .command _ => s.finish codeReclaim st a b c) := by
  split
  · exact .refl s
  · exact inner_finish _ _ _ _ _ _

theorem inner_setEng (s : State) (e : Engine) : Inner s { s with eng := e } := .same

theorem inner_endUnit (s : State) (st : Status) (b : Bool) : Inner s (s.endUnit st b).1 := by
  unfold State.endUnit
  split
  · exact .refl s
  · rename_i v hv
    refine Inner.trans ?_ (Inner.trans (inner_setEng _ _) (inner_afterUnit _))
    refine Inner.trans ?_ (inner_postUnit _ s.eng.owner _ _ _ _)
    exact (inner_stallAtEnd s v b).trans .same

/-! ### The cascade -/

theorem inner_unErase (s : State) (x : SlotId) : Inner s (s.unErase x) := by
  unfold State.unErase
  split
  · exact inner_modSector _ _ _
  · exact .refl s

theorem inner_dropWaiting (s : State) (x : SlotId) : Inner s (s.dropWaiting x) := by
  unfold State.dropWaiting
  split
  · exact (inner_unErase s x).trans .same
  · exact .refl s

theorem inner_abandonErase (s : State) : Inner s s.abandonErase := by
  unfold State.abandonErase
  split
  · exact .refl s
  · exact (inner_unErase s _).trans .same

theorem inner_refuseWaiting (s : State) (st : Status) : Inner s (s.refuseWaiting st).1 :=
  ((inner_dropWaiting s _).trans (inner_dropWaiting _ _)).trans (inner_dropWaiting _ _)

theorem inner_leaveForReadOnly (s : State) (cause : Cause) : Inner s (s.leaveForReadOnly cause).1 := by
  unfold State.leaveForReadOnly
  split
  · rename_i h
    exact ⟨((Outer.trans .same (inner_refuseWaiting _ _).toOuter).trans (inner_refuseReady _ _).toOuter).trans
      (inner_failWaiter _ _).toOuter, fun hn => absurd h hn⟩
  · exact .refl s

theorem inner_slotRefused (s : State) (x : SlotId) (st : Status) : Inner s (s.slotRefused x st).1 := by
  cases x
  · exact .refl s
  · exact inner_writerRefused _ _
  · exact inner_engineRefused _ _
  · exact .refl s

/-! ### The cascade -/

/-- What the happenings of a step may change, the grants between them included: what inner happenings change, the
Sequencer, and the marks of lines whose program or erase begins, but no byte of the array, and no mark outside MOUNTED
under the write bar. -/
structure Along (s t : State) : Prop where
  cells : t.flash.cells = s.flash.cells
  wf : s.flash.wf = true → t.flash.wf = true
  marks : s.flash.MarksKept t.flash
  barred : s.store.st ≠ .mounted → s.writeBar.isSome = true → t.flash = s.flash
  pins : t.pins = s.pins
  pending : t.pending = s.pending
  win : t.win = { s.win with faults := t.win.faults }
  faults : faultsKept s t
  cu : t.cu = { s.cu with inFlight := t.cu.inFlight, completions := t.cu.completions }
  places : t.cu.completions.length + t.cu.inFlight.length = s.cu.completions.length + s.cu.inFlight.length
  guards : fixedKept s t
  settings : s.settings.inRange → t.settings.inRange
  staging : t.tm.staging = s.tm.staging ∨ t.tm.staging = []
  store : s.store.st ≠ .mounted → t.store = s.store

theorem Inner.along {s t : State} (h : Inner s t) : Along s t where
  cells := by rw [h.flash]
  wf := fun hw => by rw [h.flash]; exact hw
  marks := by rw [h.flash]; exact .refl _
  barred := fun _ _ => h.flash
  pins := h.pins
  pending := h.pending
  win := h.win
  faults := h.faults
  cu := h.cu
  places := h.places
  guards := h.guards
  settings := h.settings
  staging := h.staging
  store := h.store

theorem Along.refl (s : State) : Along s s := (Inner.refl s).along

theorem Along.trans {s t u : State} (h1 : Along s t) (h2 : Along t u) : Along s u where
  cells := h2.cells.trans h1.cells
  wf := fun h => h2.wf (h1.wf h)
  marks := h1.marks.trans h2.marks
  barred := fun hn hb => by
    have e := h1.store hn
    have hb' : t.writeBar.isSome = true := by unfold State.writeBar at *; rw [e, h1.pins]; exact hb
    rw [h2.barred (by rw [e]; exact hn) hb', h1.barred hn hb]
  pins := h2.pins.trans h1.pins
  pending := h2.pending.trans h1.pending
  win := by rw [h2.win, h1.win]
  faults := faultsKept_trans h1.faults h2.faults
  cu := by rw [h2.cu, h1.cu]
  places := h2.places.trans h1.places
  guards := fun i hi => by
    have e := h1.guards i hi
    rw [h2.guards i (by rw [e]; exact hi), e]
  settings := fun h => h2.settings (h1.settings h)
  staging := by
    rcases h2.staging with e | e
    · rw [e]; exact h1.staging
    · exact .inr e
  store := fun h => by rw [h2.store (by rw [h1.store h]; exact h), h1.store h]

/-- A grant changes no more than that. -/
theorem along_grant (s : State) : Along s s.grant := by
  have hg := granted s
  have hr := hg.rest
  refine ⟨grant_cells s, hg.wf, hg.marks, fun _ hb => hg.barred hb, ?_, ?_, ?_, ?_, ?_, ?_, ?_, ?_, ?_, ?_⟩
  · rw [hr]
  · rw [hr]
  · rw [hr]
  · exact faultsKept_of_eq (by rw [hr])
  · rw [hr]
  · rw [hr]
  · intro i _; rw [hr]
  · intro h; rw [hr]; exact h
  · left; rw [hr]
  · intro _; rw [hr]

/-- One internal happening. -/
theorem along_handle (s : State) (g : Signal) : Along s (s.handle g).1 := by
  cases g with
  | slotRefused x st => exact (inner_slotRefused _ _ _).along
  | written x r l =>
    cases x
    · exact (inner_commitWritten _ _).along
    · exact (inner_reclaimWritten _ _ _).along
  | refused x st =>
    cases x
    · exact (inner_commitRefused _ _).along
    · exact (inner_reclaimRefused _ _).along
  | serve => exact (inner_serve _).along
  | request => exact (along_grant s).trans (inner_requestSpace _).along
  | unitEnd st b => exact (inner_endUnit _ _ _).along
  | leaveMounted c => exact (inner_leaveForReadOnly _ _).along
  | look => exact (along_grant s).trans (inner_lookForWork _).along

/-- All the happenings of a step together. -/
theorem along_drain (n : Nat) (gs : List Signal) (s t : State) (h : drain n gs s = some t) : Along s t := by
  induction n generalizing gs s with
  | zero =>
    cases gs with
    | nil => rw [drain] at h; exact (Option.some.inj h) ▸ .refl s
    | cons g gs => rw [drain] at h; exact nomatch h
  | succ n ih =>
    cases gs with
    | nil => rw [drain] at h; exact (Option.some.inj h) ▸ .refl s
    | cons g gs => rw [drain] at h; exact (along_handle s g).trans (ih _ _ h)

/-- An answer's happenings. -/
theorem along_settle {a : Answer} {t : State} (h : settle a = some t) : Along a.1 t :=
  along_drain _ _ _ _ h

end Sys2Proof.Machine
end

