-- ==== Sys2Proof/Laws/InnerStore.lean ====
section
/-! SUPPORT. The mount, the format and PFAIL#: each lemma says once what its operation may change (`Outer`). -/

namespace Sys2Proof.Machine

set_option Elab.async false

/-! ### Slot M and the ends of a mount -/

theorem outer_setStore (s : State) (c : StoreCtl) : Outer s { s with store := c } := .same

theorem outer_setScan (s : State) (c : MountScan) : Outer s (s.setScan c) := .same

theorem outer_placeM (s : State) (p : MPurpose) (op : ArrayOp) : Outer s (s.placeM p op) := by
  unfold State.placeM
  split
  · exact .refl s
  · have h := (inner_place s .m op).toOuter
    split
    · rename_i s1 e
      rw [e] at h
      exact h.trans (outer_setStore s1 _)
    · rename_i s1 st e
      rw [e] at h
      exact h

theorem outer_placeStamp (s : State) (i : SectorIx) : Outer s (s.placeStamp i) := outer_placeM _ _ _

theorem outer_releaseM (s : State) : Outer s s.releaseM := .same

theorem outer_mountEnds (s : State) (st : StoreState) (r : MountResult) (status : Status) (b c : Nat) :
    Outer s (s.mountEnds st r status b c) := by
  unfold State.mountEnds
  simp only
  split
  · exact (outer_setStore s _).trans (inner_finish _ _ _ _ _ _).toOuter
  · exact outer_setStore s _

theorem outer_keepM (s : State) (keep : Bool) : Outer s (if keep then
      { s with store := { s.store with req := s.store.req.map (fun q => { q with abandoned := true }) } }
    else
      { s with store := { s.store with req := none }, arr := { s.arr with m := none } }) := by
  cases keep <;> exact .same

theorem outer_dropM (s : State) : Outer s s.dropM :=
  outer_keepM s (match s.arr.m with | some r => r.inProgress || !r.op.isWrite | none => false)

theorem outer_mountAborts (s : State) : Outer s s.mountAborts :=
  (outer_mountEnds s _ _ _ _ _).trans (outer_dropM _)

theorem outer_beginMount (s : State) (o : MountOwner) : Outer s (s.beginMount o) := by
  unfold State.beginMount
  simp only
  split
  · exact Outer.trans .emptied (outer_mountAborts _)
  · exact Outer.trans .emptied (outer_placeStamp _ _)

theorem outer_resumeMount (s : State) : Outer s s.resumeMount := by
  unfold State.resumeMount
  split
  · exact outer_placeStamp _ _
  · exact .refl s

/-! ### The phases of a mount -/

theorem clearUnfixed_get (g : Vector GuardSlot 8) (i : GuardIx) (h : (g.get i).fixed = true) :
    (clearUnfixed g).get i = g.get i := by
  simp [clearUnfixed, h]

theorem loadGuards_get (p : List Byte) (g : Vector GuardSlot 8) (i : GuardIx) (h : (g.get i).fixed = true) :
    (loadGuards p g).get i = g.get i := by
  simp only [Vector.get_eq_getElem] at h ⊢
  simp [loadGuards, h]

theorem factory_inRange : Settings.factory.inRange :=
  ⟨⟨by decide, by decide⟩, by decide, by decide⟩

theorem ofPayload_inRange (p : List Byte) : (Settings.ofPayload p).inRange := by
  unfold Settings.inRange Settings.ofPayload inRangeOr
  simp only
  refine ⟨?_, ?_, ?_⟩ <;> split <;> omega

/-- Settings and unfixed guard slots are loaded, the rest stands. -/
theorem outer_loaded (s : State) (w : Settings) (g : Vector GuardSlot 8) (hw : w.inRange)
    (hg : ∀ i, (s.guards.get i).fixed = true → g.get i = s.guards.get i) :
    Outer s { s with settings := w, guards := g } :=
  { Outer.same (s := s) (t := s) with settings := fun _ => hw, guards := hg, win := rfl, cu := rfl }

theorem outer_loadPayload (s : State) (payload : Option (List Byte)) :
    Outer s (match payload with
    | some p =>
      if knownVersion p then { s with settings := Settings.ofPayload p, guards := loadGuards p s.guards }
      else { s with settings := Settings.factory, guards := clearUnfixed s.guards }
    | none => { s with settings := Settings.factory, guards := clearUnfixed s.guards }) := by
  split
  · split
    · exact outer_loaded s _ _ (ofPayload_inRange _) (fun i => loadGuards_get _ _ i)
    · exact outer_loaded s _ _ factory_inRange (fun i => clearUnfixed_get _ i)
  · exact outer_loaded s _ _ factory_inRange (fun i => clearUnfixed_get _ i)

theorem outer_load (s : State) : Outer s s.load := by
  unfold State.load
  exact outer_loadPayload s _

theorem outer_unformatted (s : State) : Outer s s.unformatted := by
  unfold State.unformatted
  refine Outer.trans ?_ (outer_mountEnds _ _ _ _ _ _)
  exact (outer_loaded s Settings.factory (clearUnfixed s.guards) factory_inRange
    (fun i => clearUnfixed_get _ i)).trans .same

theorem outer_setLog (s : State) (d : List DirEntry) (v : Vector SectorEntry 32) (w : LogWriter) (c : StoreCtl) :
    Outer s { s with dir := d, sectors := v, lw := w, store := c } := .same

theorem outer_build (s : State) (r : Resolved) : Outer s (s.build r) := by
  unfold State.build
  exact outer_setLog _ _ _ _ _

theorem outer_mountDone (s : State) : Outer s s.mountDone := by
  unfold State.mountDone
  simp only
  split
  · exact (inner_raiseIf s _ _).toOuter.trans (outer_mountEnds _ _ _ _ _ _)
  · exact (inner_raiseIf s _ _).toOuter.trans (outer_mountEnds _ _ _ _ _ _)

theorem outer_mountOpenNext (s : State) : Outer s s.mountOpenNext := by
  unfold State.mountOpenNext
  split
  · exact (outer_setStore s _).trans (outer_mountDone _)
  · exact Outer.trans .same (outer_placeM _ _ _)

theorem outer_openPhase (s : State) : Outer s s.openPhase := by
  unfold State.openPhase
  simp only
  split
  · exact (outer_setStore s _).trans (outer_mountOpenNext _)
  · exact (outer_setStore s _).trans (outer_mountDone _)

theorem outer_recordsDone (s : State) : Outer s s.recordsDone :=
  ((outer_build s _).trans (outer_load _)).trans (outer_openPhase _)

theorem outer_scanNext (s : State) : Outer s s.scanNext := by
  unfold State.scanNext
  split
  · exact outer_recordsDone s
  · simp only
    split
    · exact outer_placeM _ _ _
    · split
      · exact (outer_setScan s _).trans (outer_recordsDone _)
      · exact (outer_setScan s _).trans (outer_placeM _ _ _)

theorem outer_stampsDone (s : State) : Outer s s.stampsDone := by
  unfold State.stampsDone
  simp only
  split
  · exact outer_unformatted s
  · refine Outer.trans ?_ (outer_scanNext _)
    refine Outer.trans ?_ (outer_setScan _ _)
    exact Outer.trans .same (inner_raiseIf _ _ _).toOuter

theorem outer_stampRead (s : State) (i : SectorIx) (bs : List Byte) : Outer s (s.stampRead i bs) := by
  unfold State.stampRead
  simp only
  split
  · exact (outer_setScan s _).trans (outer_placeStamp _ _)
  · exact (outer_setScan s _).trans (outer_stampsDone _)

theorem outer_recordRead (s : State) (i : SectorIx) (rr : ReadResult) : Outer s (s.recordRead i rr) :=
  (outer_setScan s _).trans (outer_scanNext _)

theorem outer_stampOpened (s : State) (k : SectorIx) (a q : Nat) (v : Verify) :
    Outer s (s.stampOpened k a q v) := by
  cases v
  · exact (inner_modSector _ _ _).toOuter
  · exact (inner_modSector s _ _).toOuter.trans (inner_raise _ _).toOuter

theorem outer_mountOpened (s : State) (k : SectorIx) (a q : Nat) (v : Verify) :
    Outer s (s.mountOpened k a q v) := by
  unfold State.mountOpened
  cases v
  · exact ((outer_stampOpened s k a q .passed).trans .same).trans (outer_mountDone _)
  · exact (outer_stampOpened s k a q .failed).trans (outer_mountOpenNext _)

theorem outer_abandonedOpen (s : State) (k : SectorIx) (a q : Nat) (v : Verify) :
    Outer s (s.abandonedOpen k a q v) := by
  unfold State.abandonedOpen
  split
  · exact outer_stampOpened _ _ _ _ _
  · exact (inner_raiseIf s _ _).toOuter.trans (outer_resumeMount _)

/-! ### FORMAT -/

theorem outer_setFormat (s : State) (f : FormatFlight) : Outer s (s.setFormat f) := .same

theorem outer_formatRetired (s : State) (i : SectorIx) (l : Option Loc) : Outer s (s.formatRetired i l) :=
  (inner_modSector s _ _).toOuter.trans (inner_raise _ _).toOuter

theorem outer_retireAll (s : State) (l : List SectorIx) : Outer s (s.retireAll l) := by
  unfold State.retireAll
  induction l generalizing s with
  | nil => exact .refl s
  | cons i rest ih => exact (outer_formatRetired s i none).trans (ih _)

theorem outer_formatEnds (s : State) (f : FormatFlight) (st : StoreState) (status : Status) :
    Outer s (s.formatEnds f st status) :=
  (outer_setStore s _).trans (inner_finish _ _ _ _ _ _).toOuter

theorem outer_formatFails (s : State) (f : FormatFlight) : Outer s (s.formatFails f) := by
  unfold State.formatFails
  exact (Outer.trans .same (outer_retireAll _ _)).trans (outer_formatEnds _ _ _ _)

theorem outer_formatDone (s : State) (f : FormatFlight) : Outer s (s.formatDone f) :=
  (outer_setStore s _).trans (outer_formatEnds _ _ _ _)

theorem outer_formatRetireNext (s : State) (f : FormatFlight) (l : List SectorIx) :
    Outer s (s.formatRetireNext f l) := by
  unfold State.formatRetireNext
  split
  · exact outer_formatDone _ _
  · exact outer_formatDone _ _
  · exact Outer.trans .same (outer_placeM _ _ _)

theorem outer_formatOpenNext (s : State) (f : FormatFlight) : Outer s (s.formatOpenNext f) := by
  unfold State.formatOpenNext
  split
  · exact outer_formatFails _ _
  · exact Outer.trans .same (outer_placeM _ _ _)

theorem outer_formatTaken (s : State) (f : FormatFlight) : Outer s (s.formatTaken f) := by
  unfold State.formatTaken
  split
  · exact outer_formatFails _ _
  · exact Outer.trans .same (outer_formatOpenNext _ _)

theorem outer_formatOpened (s : State) (f : FormatFlight) (k : SectorIx) (a q : Nat) (v : Verify) :
    Outer s (s.formatOpened f k a q v) := by
  unfold State.formatOpened
  cases v
  · exact ((outer_stampOpened s k a q .passed).trans .same).trans (outer_formatRetireNext _ _ _)
  · exact (outer_stampOpened s k a q .failed).trans (outer_formatOpenNext _ _)

theorem outer_formatRetireEnded (s : State) (f : FormatFlight) (i : SectorIx) (todo : List SectorIx) (l : Loc)
    (v : Verify) : Outer s (s.formatRetireEnded f i todo l v) := by
  cases v
  · exact ((outer_formatRetired s i (some l)).trans (inner_modSector _ _ _).toOuter).trans (outer_formatRetireNext _ _ _)
  · exact ((inner_raise s _).toOuter.trans (outer_formatRetired _ i none)).trans (outer_formatRetireNext _ _ _)

theorem outer_formatTake (s : State) (f : FormatFlight) (l : List SectorIx) : Outer s (s.formatTake f l) := by
  induction l generalizing s f with
  | nil => exact outer_formatTaken s f
  | cons i rest ih =>
    unfold State.formatTake
    split
    · exact (inner_modSector s _ _).toOuter.trans (ih _ _)
    · exact ((inner_modSector s i SectorEntry.toErasing).toOuter.trans (outer_setFormat _ _)).trans (outer_placeM _ _ _)

theorem outer_formatReadLine (s : State) (f : FormatFlight) (i : SectorIx) : Outer s (s.formatReadLine f i) :=
  (outer_setFormat s _).trans (outer_placeM _ _ _)

theorem outer_formatReadEnded (s : State) (f : FormatFlight) (i : SectorIx) (bs : List Byte) :
    Outer s (s.formatReadEnded f i bs) := by
  unfold State.formatReadEnded
  simp only
  split
  · exact (inner_modSector s _ _).toOuter.trans (outer_formatReadLine _ _ _)
  · exact (inner_modSector s _ _).toOuter.trans (outer_formatTake _ _ _)

theorem outer_formatErased (s : State) (f : FormatFlight) (i : SectorIx) (todo : List SectorIx) (v : Verify) :
    Outer s (s.formatErased f i todo v) := by
  cases v
  · exact ((inner_modSector s i SectorEntry.raiseCount).toOuter.trans (outer_setFormat _ _)).trans (outer_placeM _ _ _)
  · exact ((inner_modSector s i SectorEntry.toErasePending).toOuter.trans (inner_raise _ _).toOuter).trans (outer_formatTake _ _ _)

theorem outer_formatStamped (s : State) (g : Nat) (i : SectorIx) (v : Verify) : Outer s (s.formatStamped g i v) := by
  cases v
  · exact (inner_modSector _ _ _).toOuter
  · exact (inner_modSector s _ _).toOuter.trans (inner_raise _ _).toOuter

theorem outer_beginFormat (s : State) (tag : Byte) : Outer s (s.beginFormat tag) := by
  unfold State.beginFormat
  exact Outer.trans (t := s.formatClears) .emptied (outer_formatReadLine _ _ _)

theorem outer_formatUnerase (s : State) (f : FormatFlight) (keep : Bool) : Outer s (s.formatUnerase f keep) := by
  unfold State.formatUnerase
  split
  · exact (inner_modSector _ _ _).toOuter
  · split
    · exact .refl s
    · exact (inner_modSector _ _ _).toOuter
  · exact .refl s

theorem outer_abortFormat (s : State) :
    Outer s (match s.store.format with
    | none => State.dropM { s with store := { s.store with st := .powerHold, dirValid := false } }
    | some f =>
      let keep := match s.arr.m with | some r => r.inProgress | none => false
      (((s.formatUnerase f keep).retireAll f.listed).formatEnds f .powerHold .powerFail).dropM) := by
  split
  · exact (outer_setStore _ _).trans (outer_dropM _)
  · exact (((outer_formatUnerase _ _ _).trans (outer_retireAll _ _)).trans (outer_formatEnds _ _ _ _)).trans
      (outer_dropM _)

theorem outer_formatAborts (s : State) : Outer s s.formatAborts :=
  (inner_abandonErase s).toOuter.trans (outer_abortFormat _)

/-! ### PFAIL# and READ ends -/

theorem outer_holdStaging (s : State) : Outer s s.holdStaging := .same

theorem outer_holdIf (s : State) (p : Prop) [Decidable p] : Outer s (if p then s.holdStaging else s) := by
  split
  · exact outer_holdStaging s
  · exact .refl s

theorem outer_powerHold (s : State) : Outer s s.powerHold.1 := by
  unfold State.powerHold
  refine Outer.trans ?_ (inner_failWaiter _ _).toOuter
  refine Outer.trans ?_ (inner_refuseReady _ _).toOuter
  refine Outer.trans ?_ (inner_abandonErase _).toOuter
  refine Outer.trans ?_ (inner_refuseWaiting _ _).toOuter
  exact (outer_holdIf s (s.store.st = .mounted)).trans .same

theorem outer_powerFails (s : State) : Outer s s.powerFails.1 := by
  unfold State.powerFails
  split
  · exact outer_powerHold s
  · exact outer_powerHold s
  · exact outer_mountAborts s
  · exact outer_formatAborts s
  · exact outer_setStore s _
  · exact .refl s

end Sys2Proof.Machine
end

