-- ==== Sys2Proof/Laws/Cascade.lean ====
section
/-! SUPPORT. What the shared operations can answer, each said once: the end of a step, the engine's search when nothing
lets it start, the taking of commands, write frames, placing and sequence blocks. -/

namespace Sys2Proof.Machine

set_option Elab.async false

/-! ### The end of a step -/

/-- A step that answers has settled its happenings, let the engine look, and made its grant. -/
theorem conclude_next {a : Answer} {t : State} (h : conclude a = .next t) : ∃ u, Along a.1 u ∧ t = u.grant := by
  unfold conclude at h
  split at h
  · rename_i u hu
    obtain ⟨v, hv, hd⟩ := Option.bind_eq_some_iff.mp hu
    exact ⟨u, (along_settle hv).trans (along_drain _ _ _ _ hd), (Host.Outcome.next.inj h).symm⟩
  · exact nomatch h

/-- The engine starts nothing: the store is not MOUNTED, the engine is not IDLE, or no reason holds (R84). -/
theorem lookForWork_rest (s : State) (h : s.store.st ≠ .mounted ∨ s.eng.st ≠ .idle ∨ s.settings.autoReclaim ≠ 1) :
    s.lookForWork = (s, []) := by
  unfold State.lookForWork
  rw [if_neg]
  unfold State.automaticReason State.waitingReason State.pendingReason
  rcases h with h | h | h <;> simp [h]

/-- What the look of the engine does (R84, R85, R98, R99): it starts the unit of R85, finds none, or has no reason. -/
theorem lookForWork_cases (s : State) :
    (∃ k i, s.unitChoice = some (k, i) ∧ s.lookForWork = s.startUnit k i .automatic) ∨
    (s.unitChoice = none ∧ s.lookForWork = (s.noUnit, [])) ∨ s.lookForWork = (s, []) := by
  unfold State.lookForWork
  split
  · split
    · exact .inl ⟨_, _, ‹_›, rfl⟩
    · exact .inr (.inl ⟨‹_›, rfl⟩)
  · exact .inr (.inr rfl)

/-- One happening is dealt with before those behind it. -/
theorem drain_cons (n : Nat) (g : Signal) (gs : List Signal) (s : State) :
    drain (n + 1) (g :: gs) s = drain n (queued (s.handle g).2 gs) (s.handle g).1 := rfl

theorem drain_nil (n : Nat) (s : State) : drain n [] s = some s := by
  cases n <;> rfl

theorem queued_nil (gs : List Signal) : queued [] gs = gs := by
  simp [queued]

/-- An answer without happenings is settled. -/
theorem settle_nil (s : State) : settle (s, []) = some s :=
  drain_nil _ _

/-- A step without happenings of its own whose engine starts nothing once a grant has been made. -/
theorem conclude_of_look {s : State} (h : s.grant.lookForWork = (s.grant, [])) : conclude (s, []) = .next s.grant := by
  unfold conclude
  rw [settle_nil, show Config.cascadeBound = 399 + 1 from rfl]
  simp only [Option.bind_some, drain_cons, State.handle, h, queued_nil, drain_nil, grant_grant]

/-- A step without happenings of its own, at whose end the engine starts nothing. -/
theorem conclude_rest (s : State) (h : s.store.st ≠ .mounted ∨ s.eng.st ≠ .idle ∨ s.settings.autoReclaim ≠ 1) :
    conclude (s, []) = .next s.grant := by
  refine conclude_of_look (lookForWork_rest _ ?_)
  rw [(granted s).rest]
  exact h

/-! ### Takes, frames, requests -/

/-- The head entry is taken only as R151 and R152 say. -/
theorem takeable_some {s : State} {test : Byte → Bool} {e : CmdEntry} (h : s.takeable test = some e) :
    s.cu.queue = e :: s.cu.queue.tail ∧ s.mayTake = true ∧ test e.code = true := by
  unfold State.takeable at h
  split at h
  · exact nomatch h
  · rename_i x rest hq
    split at h
    · rename_i hc
      cases h
      simp only [Bool.and_eq_true] at hc
      exact ⟨by rw [hq]; rfl, hc.1, hc.2⟩
    · exact nomatch h

/-- The completion places left when a command may be taken (R151). -/
theorem mayTake_places {s : State} (h : s.mayTake = true) :
    s.cu.executing = none ∧ s.cu.completions.length + s.cu.inFlight.length + 1 ≤ Config.completionQueueSize := by
  unfold State.mayTake at h
  simp only [Bool.and_eq_true, decide_eq_true_eq, Option.isNone_iff_eq_none] at h
  exact ⟨h.1.2, h.2⟩

/-- An open write frame at an address that passes the test. -/
theorem writeFrame_some {s : State} {test : BitVec 6 → Bool} {f : Frame} (h : s.writeFrame test = some f) :
    s.win.port = .frame f ∧ f.dir = .write ∧ test f.addr = true := by
  unfold State.writeFrame at h
  split at h
  · rename_i g hg
    split at h
    · rename_i hc
      cases h
      simp only [Bool.and_eq_true, decide_eq_true_eq] at hc
      exact ⟨hg, hc.1, hc.2⟩
    · exact nomatch h
  · exact nomatch h

/-- A placed request is refused by the write bar or joins its slot (R106, R112). -/
theorem place_cases (s : State) (x : SlotId) (op : ArrayOp) :
    (∃ st, op.isWrite = true ∧ s.writeBar = some st ∧ s.place x op = (s, some st)) ∨
      s.place x op = ({ s with arr := s.arr.put x op }, none) := by
  unfold State.place
  cases hw : op.isWrite
  · exact .inr rfl
  · cases hb : s.writeBar with
    | none => exact .inr rfl
    | some st => exact .inl ⟨st, rfl, rfl, rfl⟩

/-- A sequence block is granted when it stays within FFFFFFFFh, and refused with the counter unchanged otherwise
(R10). -/
theorem takeSeq_cases (s : State) (k : Nat) :
    (s.lw.seqCtr + k ≤ Config.maxSequenceCounter ∧
        s.takeSeq k = (some s.lw.seqCtr, { s with lw := { s.lw with seqCtr := s.lw.seqCtr + k } })) ∨
      (Config.maxSequenceCounter < s.lw.seqCtr + k ∧ s.takeSeq k = (none, s)) := by
  unfold State.takeSeq
  by_cases h : s.lw.seqCtr + k ≤ Config.maxSequenceCounter
  · exact .inl ⟨h, if_pos h⟩
  · exact .inr ⟨by omega, if_neg h⟩

/-- The operation in hand of a slot is that slot's request in progress (R105). -/
theorem inHand_some {s : State} {x : SlotId} {op : ArrayOp} (h : s.inHand x = some op) :
    s.arr.busy = some x ∧ s.arr.slot x = some { op := op, inProgress := true } := by
  unfold State.inHand at h
  split at h
  · rename_i hb
    split at h
    · rename_i r hr
      split at h
      · rename_i hp
        cases h
        exact ⟨hb, by rw [hr, ← hp]⟩
      · exact nomatch h
    · exact nomatch h
  · exact nomatch h

end Sys2Proof.Machine
end

