-- ==== Sys2Proof/Laws/Claims.lean ====
section
/-! SUPPORT. What the terms of Safety say of the shared operations: the engine that starts nothing, and a step that ends
in a grant. -/

namespace Sys2Proof.Machine

set_option Elab.async false

/-- An engine without a reason looks for nothing (R84). -/
theorem lookForWork_quiet {s : State} (h : s.engineRests) : s.lookForWork = (s, []) := by
  rcases h with h | h | h | ⟨hb, he, hr, hw⟩
  · exact lookForWork_rest s (.inl h)
  · exact lookForWork_rest s (.inr (.inl h))
  · exact lookForWork_rest s (.inr (.inr h))
  · unfold State.lookForWork State.automaticReason State.waitingReason State.pendingReason
    rw [if_neg]
    simp [hb, he, hr, hw]

/-- A grant leaves a quiet engine quiet. -/
theorem engineRests_grant {s : State} (h : s.engineRests) : s.grant.engineRests := by
  rw [(granted s).rest]
  exact h

/-- A drain whose last happening is a quiet engine's look ends in a grant. -/
theorem drain_quiet {n : Nat} {s : State} (h : s.engineRests) : drain (n + 1) [.look] s = some s.grant := by
  rw [drain_cons, State.handle, lookForWork_quiet (engineRests_grant h), queued_nil, drain_nil]

/-- A step without happenings of its own and with a quiet engine ends in its grant. -/
theorem conclude_quiet {s : State} (h : s.engineRests) : conclude (s, []) = .next s.grant :=
  conclude_of_look (lookForWork_quiet (engineRests_grant h))

/-- A step that ends in a grant, from its outcome and the bytes it stored. -/
theorem endsIn_of {c : Instr} {s u : State} {stored : Nat → Prop} (h : exec c s = .next u.grant)
    (hb : bytesKept s u stored) : endsIn c s u stored :=
  ⟨h, (granted u).rest, fun ln i hi hn => by rw [grant_byte]; exact hb ln i hi hn⟩

/-- A step that ends in a grant and stores nothing. -/
theorem endsIn_of_same {c : Instr} {s u : State} (h : exec c s = .next u.grant) (hf : u.flash = s.flash)
    (stored : Nat → Prop) : endsIn c s u stored :=
  endsIn_of h (fun _ _ _ _ => by rw [hf])

end Sys2Proof.Machine
end

