-- ==== Sys2Proof/WellFormed.lean ====
section
/-! DEFINITION. Which commands are well formed: a faulty READ returns no more bytes than its request can name. A byte of a
frame may have any value; the byte with bit 0 clear at SOFT-RESET is a command too, which is ignored (R180). -/

namespace Sys2Proof

/-- The bytes an altered READ returns are at most those of `lines` lines (R103: a READ names 1–16 lines). -/
def ReadOutcome.wfFor (lines : Nat) : ReadOutcome → Bool
  | .stored => true
  | .altered bytes => decide (bytes.length ≤ Config.lineBytes * lines)

/-- The most lines the READ that a command ends can have read, for the commands that end a READ. -/
def Instr.readLines : Instr → Option (Nat × ReadOutcome)
  | .getReadEnd r => some (16, r)
  | .reclaimReadEnd r => some (16, r)
  | .mountRecordReadEnd r => some (16, r)
  | .mountStampReadEnd r => some (2, r)
  | .formatStampReadEnd r => some (1, r)
  | _ => none

/-- Well-formedness of a command. -/
def Instr.wf (i : Instr) : Bool :=
  match i.readLines with
  | some (n, r) => r.wfFor n
  | none => true

end Sys2Proof
end

