-- ==== Sys2Proof/Tests/Slice0.lean ====
section
/-! SUPPORT. The model's own tests: the well-formedness smoke, small tests from the spec's worked examples and rules, and
for every statement with hypotheses a state that meets them. -/

namespace Sys2Proof.Tests

open Sys2Proof Sys2Proof.Machine

set_option Elab.async false

/-! ### Small states -/

def entry (st : SectorState) (count activation openingSeq live dead : Nat) : SectorEntry :=
  { SectorEntry.reset with
    st := st, eraseCount := count, activation := activation, openingSeq := openingSeq, live := live, dead := dead
    generation := 2 }

def dirEntry (key : Key) (present : Bool) (sector : SectorIx) (line lines length seq : Nat) : DirEntry :=
  { key := key, present := present, loc := { sector := sector, line := line }, lines := lines, length := length
    seq := seq, stale := false }

/-- Sector 0 ACTIVE to line 10, sectors 1 and 2 SEALED, the rest BLANK, of which sector 5 is the least erased. -/
def sectors : Vector SectorEntry 32 :=
  Vector.ofFn (fun i : SectorIx =>
    if i = 0 then entry .active 9 3 15 3 5
    else if i = 1 then entry .sealed 7 1 2 2 252
    else if i = 2 then entry .sealed 7 2 9 0 254
    else if i = 5 then entry .blank 1 0 0 0 0
    else entry .blank 6 0 0 0 0)

def dir : List DirEntry :=
  [dirEntry 0x0005#16 true 1 2 2 5 3, dirEntry 0x0009#16 false 0 2 1 0 16, dirEntry 0x0010#16 true 0 3 2 18 17]

/-- A MOUNTED store with an idle engine that has no reason to work. -/
def base : State :=
  { State.reset with
    pins := { resetLow := false, pfailLow := false, vccInRange := true }
    sectors := sectors
    dir := dir
    lw := { LogWriter.reset with point := some { sector := 0, line := 10 }, seqCtr := 20, actCtr := 4, txnCtr := 65535 }
    store := { StoreCtl.reset with
      st := .mounted, dirValid := true, phase := .open_, result := .clean, generation := 2, mount := none } }

def cmd (code : Byte) (key : Key) (len arg0 arg1 arg2 arg3 : Byte) : CmdEntry :=
  { code := code, tag := 0x77#8, key := key, len := len, arg0 := arg0, arg1 := arg1, arg2 := arg2, arg3 := arg3 }

/-- A command of a code and key, its other parameters 0. -/
def plain (code : Byte) (key : Key) : CmdEntry := cmd code key 0#8 0#8 0#8 0#8 0#8

def withHead (s : State) (e : CmdEntry) : State :=
  { s with cu := { s.cu with queue := [e, plain 0xEE#8 0#16] } }

def withStore (s : State) (st : StoreState) : State :=
  { s with store := { s.store with st := st } }

def withStaging (s : State) (l : List Staged) : State :=
  { s with tm := { s.tm with staging := l } }

def withEngine (s : State) (st : EngineState) (v : SectorIx) : State :=
  { s with eng := { s.eng with st := st, sector := some v } }

def withAuto (s : State) (n : Nat) : State :=
  { s with settings := { s.settings with autoReclaim := n } }

def withFrame (s : State) (dir : FrameDir) (addr : BitVec 6) : State :=
  { s with win := { s.win with port := .frame { dir := dir, addr := addr, snapshot := s.window, out := none } } }

/-- An operation in progress in a slot. -/
def performing (s : State) (x : SlotId) (op : ArrayOp) : State :=
  { s with arr := { s.arr.setSlot x (some { op := op, inProgress := true }) with busy := some x } }

def withErase (s : State) (x : SlotId) (cond : EraseCond) : State :=
  { s with arr := { s.arr with erase := some { slot := x, cond := cond, time := 9, suspensions := 2, limit := 24 } } }

def put (key : Key) (n : Nat) : Staged := { key := key, value := some (List.replicate n 0x5A#8) }

def del (key : Key) : Staged := { key := key, value := none }

def withEntry (s : State) (i : SectorIx) (x : SectorEntry) : State :=
  { s with sectors := s.sectors.set i.val x i.isLt }

def inFlight (s : State) (l : List (Byte × Byte)) : State :=
  { s with cu := { s.cu with inFlight := l } }

def guarded (s : State) (i : GuardIx) (low high : Key) (mode : GuardMode) (fixed : Bool) : State :=
  { s with guards := s.guards.set i.val { inUse := true, low := low, high := high, mode := mode, fixed := fixed } i.isLt }

def lineAt (s : State) (line : Nat) : State :=
  { s with lw := { s.lw with point := some { sector := 0, line := line } } }

/-- Two BLANK sectors and the ACTIVE one at a line, with the other streams' reservations as given, and an engine that
works: free lines are 764 less the line. -/
def tight (line : Nat) (commitRes reclaimRes : Option Nat) (seqCtr : Nat) : State :=
  let s := withEngine (lineAt base line) .copying 2
  { s with
    sectors := Vector.ofFn (fun i : SectorIx =>
      if i = 0 then entry .active 9 3 15 3 5
      else if i = 5 ∨ i = 6 then entry .blank 1 0 0 0 0
      else entry .sealed 7 2 9 254 0)
    lw := { s.lw with commitRes := commitRes, reclaimRes := reclaimRes, seqCtr := seqCtr } }

/-- As `tight`, with fewer BLANK sectors than RECLAIM-THRESHOLD, an IDLE engine, and sector 4 as given. -/
def scarce (line : Nat) (held : Option Nat) (seqCtr : Nat) (x : SectorEntry) : State :=
  { withEntry (tight line held none seqCtr) 4 x with eng := Engine.reset }

/-- A commit of one operation that waits for space, in flight behind another command. -/
def waitingCommit : CommitFlight :=
  { n := 1, amount := 35, phase := .waitingSpace, first := 0, txn := 0, nextIx := 0, written := [] }

def withWaiter (s : State) : State :=
  { withStaging s [put 0x0100#16 20] with
    tm := { s.tm with staging := [put 0x0100#16 20], commit := some waitingCommit }
    cu := { s.cu with inFlight := [(0x41#8, 1#8), (0x23#8, 2#8)] } }

/-- A settings write that waits for space. -/
def withSaver (s : State) : State :=
  let f : SettingsFlight := { phase := .waitingSpace, payload := settingsPayload s.settings s.guards, seq := 0 }
  { inFlight s [(0x41#8, 1#8), (0x31#8, 3#8)] with tm := { s.tm with settings := some f } }

/-- No sector is BLANK. -/
def blankless (s : State) : State :=
  { s with sectors := s.sectors.map (fun x => if x.st = .blank then { x with st := .sealed } else x) }

/-- The store in POWER-HOLD with the Log Writer stopped, or in another state with it not stopped. -/
def haltedAs (s : State) (st : StoreState) : State :=
  { withStore s st with lw := { s.lw with stopped := decide (st = .powerHold) } }

/-- A one-line record of a kind and payload, solo. -/
def small (kind : RecKind) (key : Key) (txn seq : Nat) (payload : List Byte) : Record :=
  { kind := kind, solo := true, relocated := false, key := key, txn := txn, seq := seq, payload := payload }

/-- What a field of the next state is; none when the step does not answer. -/
def after {α : Type} (o : Host.Outcome State Fault Refusal) (f : State → α) : Option α :=
  match o with
  | .next t => some (f t)
  | _ => none

/-! ### Well-formedness (smoke) -/

theorem test_wf_get_read_too_long : Instr.wf (.getReadEnd (.altered (List.replicate 257 0#8))) = false := by
  decide +kernel

theorem test_wf_reclaim_read_too_long : Instr.wf (.reclaimReadEnd (.altered (List.replicate 257 0#8))) = false := by
  decide +kernel

theorem test_wf_record_read_too_long : Instr.wf (.mountRecordReadEnd (.altered (List.replicate 257 0#8))) = false := by
  decide +kernel

theorem test_wf_stamp_read_too_long : Instr.wf (.mountStampReadEnd (.altered (List.replicate 33 0#8))) = false := by
  decide +kernel

theorem test_wf_format_read_too_long : Instr.wf (.formatStampReadEnd (.altered (List.replicate 17 0#8))) = false := by
  decide +kernel


theorem test_wf_longest_read : Instr.wf (.getReadEnd (.altered (List.replicate 256 0#8))) = true := by
  decide +kernel

/-- R180: the byte with bit 0 clear at SOFT-RESET is well formed, and ignored but for the frame's address. -/
theorem test_soft_reset_ignored : Instr.wf (.softReset 0xFE#8) = true ∧
    after (exec (.softReset 0xFE#8) (withFrame base .write 0x3F#6)) (fun t => (t.store, t.win.port)) =
      some (base.store, .frame { dir := .write, addr := 0x00#6, snapshot := base.window, out := none }) := by
  decide +kernel

/-- R180: a frame whose control byte completes after a reset has acted on it is dropped; its bytes are not taken. -/
theorem test_frame_across_reset : after (exec (.controlByte ⟨0x0A#8, true⟩) base) (fun t => t.win.port) = some .waitHigh ∧
    after (exec (.controlByte ⟨0x0A#8, false⟩) base) (fun t => t.win.port) =
      some (.frame { dir := .write, addr := 0x0A#6, snapshot := [], out := none }) := by
  decide +kernel

/-! ### Small tests; the expected values come from the spec -/

/-- Section 1.7: PUT of 20 and of 100 bytes take 3 and 8 lines, a TOMBSTONE 1. -/
theorem test_line_counts : [linesFor 20, linesFor 100, linesFor 0, linesFor 242] = [3, 8, 1, 16] := by decide

/-- Section 1.7: the three operations ask for 45 lines. -/
theorem test_commit_amount : commitAmount [put 0x0100#16 20, put 0x0101#16 100, del 0x0102#16] = 45 := by decide

/-- R8: the CRC of "123456789" with initial value FFFFh and polynomial 1021h is 29B1h. -/
theorem test_crc : crc16 [0x31#8, 0x32#8, 0x33#8, 0x34#8, 0x35#8, 0x36#8, 0x37#8, 0x38#8, 0x39#8] = 0x29B1#16 := by
  decide +kernel

def walkDir : List DirEntry :=
  [dirEntry 0x0010#16 true 1 2 2 8 700, dirEntry 0x0011#16 false 1 4 1 0 702, dirEntry 0x0020#16 true 1 5 2 16 650,
   dirEntry 0x0030#16 true 1 7 2 4 704, dirEntry 0xFF01#16 true 1 9 5 52 690]

/-- The store of section 3.7. -/
def walkStore (code : Byte) (key : Key) : State :=
  withHead (guarded { base with dir := walkDir } 2 0x0020#16 0x002F#16 .hidden false) (plain code key)

/-- Section 3.7: NEXT 0010h passes over the DELETED 0011h and the hidden 0020h. -/
theorem test_next_walk : after (exec .next (walkStore 0x11#8 0x0010#16)) (fun t => t.cu.completions) =
    some [(plain 0x11#8 0#16).done .ok 704 4 0x0030] := by decide +kernel

/-- Section 3.7: NEXT 0030h passes over FF01h. -/
theorem test_next_end : after (exec .next (walkStore 0x11#8 0x0030#16)) (fun t => t.cu.completions) =
    some [(plain 0x11#8 0#16).done .notFound 0 0 0] := by decide +kernel

/-- Section 3.7: GET of the hidden 0020h ends PROTECTED and raises GUARD-REFUSAL. -/
theorem test_get_hidden : after (exec .get (walkStore 0x10#8 0x0020#16)) (fun t =>
    (t.cu.completions.map Completion.status, t.indicated .guardRefusal)) = some ([.protected_], true) := by
  decide +kernel

/-- The list of section 4.9 with entries 0040h PRESENT and 0042h DELETED. -/
def shaping (code : Byte) (key : Key) (len : Byte) (l : List Staged) : State :=
  let s := { base with
    dir := [dirEntry 0x0040#16 true 1 2 1 2 3, dirEntry 0x0042#16 false 1 3 1 0 4]
    win := { base.win with input := List.replicate 12 0x5A#8 } }
  withHead (withStaging s l) (cmd code key len 0#8 0#8 0#8 0#8)

/-- Section 4.9 step 3: the staged PUT of 0040h is replaced in its position. -/
theorem test_put_replaces : after (exec .put (shaping 0x20#8 0x0040#16 12#8 [put 0x0040#16 30, put 0x0041#16 100]))
    (fun t => (t.tm.staging, t.stagedBytes, t.win.input)) = some ([put 0x0040#16 12, put 0x0041#16 100], 112, []) := by
  decide +kernel

/-- Section 4.9 step 4: the staged PUT of the new key 0041h is removed. -/
theorem test_delete_removes : after (exec .delete (shaping 0x21#8 0x0041#16 0#8 [put 0x0040#16 12, put 0x0041#16 100]))
    (fun t => t.tm.staging) = some [put 0x0040#16 12] := by decide +kernel

/-- Section 4.9 step 5: the staged PUT of the PRESENT 0040h becomes a DELETE in place. -/
theorem test_delete_converts : after (exec .delete (shaping 0x21#8 0x0040#16 0#8 [put 0x0040#16 12]))
    (fun t => t.tm.staging) = some [del 0x0040#16] := by decide +kernel

/-- Section 8.5 step 5: GUARD-SET 2, FF00h–FF0Fh, WRITE-GUARDED answers 102h, FF00h, FF0Fh. -/
theorem test_guard_set : after (exec .guardSet (withHead base (cmd 0x38#8 0xFF00#16 0#8 2#8 1#8 0xFF#8 0x0F#8)))
    (fun t => t.cu.completions) = some [(plain 0x38#8 0#16).done .ok 0x102 0xFF00 0xFF0F] := by decide +kernel

/-- Section 8.5: GUARD-SET 0, CLEAR of a fixed slot answers PROTECTED with A = 10100h. -/
theorem test_guard_fixed : after (exec .guardSet
    (withHead (guarded base 0 0x0100#16 0x01FF#16 .writeGuarded true) (cmd 0x38#8 0#16 0#8 0#8 0#8 0#8 0#8)))
    (fun t => t.cu.completions) = some [(plain 0x38#8 0#16).done .protected_ 0x10100 0x0100 0x01FF] := by
  decide +kernel

/-- Section 1.7 before the commit: sector 7 at line 240, sector 12 the least erased of 5 BLANK ones. -/
def split : State :=
  { base with
    sectors := Vector.ofFn (fun i : SectorIx =>
      if i = 7 then entry .active 3 62 7000 100 138
      else if i = 12 then entry .blank 1 0 0 0 0
      else if i.val < 4 then entry .blank 2 0 0 0 0
      else if i = 30 then entry .reclaiming 2 1 1 8 246
      else entry .sealed 2 1 1 254 0)
    eng := { Engine.reset with st := .copying, unit := some .pass, sector := some 30 }
    lw := { LogWriter.reset with
      point := some { sector := 7, line := 240 }, reclaimRes := some 40, seqCtr := 8000, actCtr := 63, txnCtr := 37 }
    tm := { TxnManager.reset with staging := [put 0x0100#16 20, put 0x0101#16 100, del 0x0102#16] } }

/-- Section 1.7: free lines 1286, held lines 40. -/
theorem test_free_lines : (split.freeLines, split.heldLines) = (1286, 40) := by decide +kernel

/-- Section 1.7 step 1: record 1 is placed in sector 7 at line 240; the counters are 8004 and 38, the flag RECLAIM, and
the remainder is 45 less the line charged so far. -/
theorem test_commit_split : after (exec .commit (withHead split (plain 0x23#8 0#16)))
    (fun t => (t.lw.seqCtr, t.lw.txnCtr, t.lw.flag, t.lw.commitRes, t.lw.point)) =
    some (8004, 38, .reclaim, some 44, some { sector := 7, line := 241 }) := by decide +kernel

def splitCommit : CommitFlight :=
  { n := 3, amount := 45, phase := .writing, first := 8000, txn := 37, nextIx := 2
    written := [{ sector := 7, line := 240 }] }

/-- The commit of section 1.7 at step 4, the open stamp of sector 12 in progress for record 2. -/
def splitOpening : State :=
  let r := (put 0x0101#16 100).record false 37 8001
  performing
    { split with
      lw := { split.lw with
        point := some { sector := 7, line := 249 }, commitRes := some 42, reclaimRes := some 34, seqCtr := 8004
        actCtr := 64
        current := some { stream := .commit, record := r, place := none, done := 0, failures := 0 }
        opening := some { candidate := 12, early := false, activation := 63, openingSeq := 8004 } }
      tm := { split.tm with commit := some splitCommit } }
    .l (.program 12 1 (openStampLine 63 8004))

/-- Section 1.7 step 4: sector 7 is SEALED, sector 12 ACTIVE, the 7 skipped lines and one of record 2 charged. -/
theorem test_opening_charges : after (exec (.openStampProgramEnd .passed) splitOpening)
    (fun t => ((t.sector 7).st, (t.sector 12).st, t.lw.commitRes, t.lw.point)) =
    some (.sealed, .active, some 34, some { sector := 12, line := 3 }) := by decide +kernel

/-- R180: PFAIL# high, RESET# released and VCC in range; the automatic mount reads the stamps of sector 0. -/
theorem test_power_up_mounts : after (exec .vccInOperatingRange State.reset)
    (fun t => (t.store.st, t.arr.m)) =
    some (.mounting, some { op := .readLines 0 0 2, inProgress := true }) := by decide +kernel

/-- R175: STORE-STATE reads 01h after reset, and a frame that starts there returns it. -/
theorem test_read_store_state : after (exec .dataOut (withFrame State.reset .read 0x02#6)) (fun t => t.win.sdo) =
    some (some 0x01#8) := by decide +kernel

/-- R152: code EEh is answered UNKNOWN-COMMAND. -/
theorem test_unknown : after (exec .unknownCommand (withHead base (plain 0xEE#8 0#16)))
    (fun t => t.cu.completions.map Completion.status) = some [.unknownCommand] := by decide +kernel

/-! ### Witnesses: for every statement with hypotheses, states and operands that meet them, clause by clause -/

/-- At every bound that is kept: 8 places, 16 operations of 2048 bytes, 4 commands, 256 bytes, settings at their ends.
-/
def full : State :=
  let s := withStaging base ((List.range 16).map (fun n => put (BitVec.ofNat 16 (n + 1)) 128))
  { guarded s 0 0x0100#16 0x01FF#16 .writeGuarded true with
    settings := { threshold := 2, autoReclaim := 1, suspendLimit := 24 }
    cu := { base.cu with
      queue := List.replicate 4 (plain 0x20#8 0x0001#16), inFlight := [(0x41#8, 0x01#8)]
      completions := List.replicate 7 ((plain 0x11#8 0#16).done .ok 1 2 3) }
    win := { base.win with input := List.replicate 256 0x5A#8, faults := 0x0003#16 }
    pending := [.csRisingEdge] }

/-- No command of a code is in flight. -/
theorem no_code {l : List (Byte × Byte)} {c : Byte} (h : l.all (fun p => decide (p.1 ≠ c)) = true) :
    ∀ p ∈ l, p.1 ≠ c := by
  simpa using h

def answers (o : Host.Outcome State Fault Refusal) : Bool :=
  (after o (fun _ => true)).isSome

theorem witness_StepRunsFront :
    full.pending = .csRisingEdge :: [] ∧
    (base.pending = [] ∧ (withErase base .c .running).arr.erase =
      some { slot := .c, cond := .running, time := 9, suspensions := 2, limit := 24 }) ∧
    (∀ e, base.arr.erase = some e → e.cond ≠ .running) := by
  refine ⟨rfl, ⟨rfl, rfl⟩, fun e h => ?_⟩
  cases h

/-- FlashCanonicalKept, PlacesKept, StagingLimitsKept, SettingsAndBuffersBounded. -/
theorem witness_StepInvariants :
    full.flash.wf = true ∧ full.places = 8 ∧ (full.tm.staging.length = 16 ∧ stagedBytesOf full.tm.staging = 2048) ∧
      stagingWithin full.tm.staging ∧ full.settings.inRange ∧ full.cu.queue.length = 4 ∧ full.win.input.length = 256 ∧
      full.win.intEnable &&& 0xF800#16 = 0#16 ∧ answers (step full) = true := by
  and_intros <;> decide +kernel

/-- A line of sector 5 written and of undefined bytes, in an idle array. -/
def torn (k : UndefKind) : State :=
  { base with flash := { cells := [], written := [1280], undef := [(1280, k)] } }

theorem witness_FlashCanonicalKept :
    step (torn .free) = .next (torn .free) ∧ 1280 ∈ (torn .free).flash.written ∧
    undefKind (torn .free).flash.undef 1280 ≠ none ∧ (torn .free).arr.busy = none ∧ 1280 = lineNo 5 0 := by
  and_intros <;> first | rfl | decide +kernel

theorem witness_FixedGuardsKept :
    Instr.resetAsserted ≠ .powerOnReset ∧ (full.guards.get 0).fixed = true ∧ answers (exec .resetAsserted full) = true := by
  and_intros <;> decide +kernel

theorem witness_IndicationsSticky :
    (∀ b, Instr.csRisingEdge ≠ .faults b) ∧ Instr.csRisingEdge ≠ .powerOnReset ∧ Instr.csRisingEdge ≠ .resetAsserted ∧
      (∀ b, Instr.csRisingEdge ≠ .softReset b) ∧ answers (exec .csRisingEdge full) = true ∧
      full.indicated .programFault = true ∧ full.indicated .eraseFault = true :=
  ⟨nofun, nofun, nofun, nofun, by decide +kernel, by decide +kernel, by decide +kernel⟩

def committing : CommitFlight :=
  { n := 1, amount := 34, phase := .writing, first := 19, txn := 0, nextIx := 1, written := [] }

def withCommit (s : State) (f : CommitFlight) : State := { s with tm := { s.tm with commit := some f } }

/-- A commit of a new key in flight, and the next command. -/
def directed : State :=
  { withCommit (withStaging base [put 0x0100#16 20]) committing with pending := [.csRisingEdge] }

theorem witness_DirectoryKept :
    stagingWithin directed.tm.staging ∧ DirectorySafe directed ∧ answers (step directed) = true := by
  refine ⟨by and_intros <;> decide +kernel, ?_, by decide +kernel⟩
  exact
    { sorted := by decide +kernel
      keys := by decide +kernel
      size := by decide +kernel
      commit := fun _ => by decide +kernel
      settings := fun h => absurd rfl h
      one := .inr rfl
      mounting := nofun
      request := nofun
      held := nofun
      scanned := nofun }

/-- The part held in reset, with the end of that reset to come. -/
theorem witness_DirectoryKept_held :
    let s := { State.reset with pending := [.vccInOperatingRange] }
    DirectorySafe s ∧ s.heldInReset = true ∧
      after (step s) (fun t => (t.heldInReset, t.store.st, t.arr.busy)) = some (false, .mounting, some .m) :=
  ⟨{ sorted := rfl
     keys := nofun
     size := Nat.zero_le _
     commit := fun h => absurd rfl h
     settings := fun h => absurd rfl h
     one := .inl rfl
     mounting := fun _ => ⟨rfl, rfl⟩
     request := nofun
     held := fun _ => ⟨rfl, rfl, nofun⟩
     scanned := nofun }, by decide +kernel, by decide +kernel⟩

/-- PFAIL# low with a line program in progress. -/
def held : State :=
  let s := performing (withStore base .powerHold) .l (.program 0 9 (List.replicate 16 0#8))
  { s with pins := { s.pins with pfailLow := true }, pending := [.csRisingEdge] }

theorem witness_NothingBeginsUnderWriteBar :
    after (step held) (fun t => (t.pins.pfailLow, t.arr.slot .l)) =
      some (true, some { op := .program 0 9 (List.replicate 16 0#8), inProgress := true }) := by
  decide +kernel

/-- A COMMIT whose sequence block is refused, with a walk's request waiting in slot C. -/
def exhausted : State :=
  let s := withHead (withStaging (withEngine base .copying 2) [put 0x0100#16 20]) (plain 0x23#8 0#16)
  { s with lw := { s.lw with seqCtr := 0xFFFFFFFF }, pending := [.commit] }

theorem witness_NothingBeginsUnderWriteBar_readOnly :
    exhausted.store.st = .mounted ∧ exhausted.store.req = none ∧
    after (step exhausted) (fun t => t.store.st) = some .readOnly ∧
    ((withStore held .readOnly).store.st = .readOnly ∧
      after (step (withStore held .readOnly)) (fun t => t.store.st) = some .readOnly) := by
  and_intros <;> decide +kernel

theorem witness_PfailEntersPowerHold :
    (base.pins.pfailLow = false ∧ base.heldInReset = false ∧ base.store.st = .mounted) ∧
    ((withStore base .readOnly).pins.pfailLow = false ∧ (withStore base .readOnly).heldInReset = false ∧
      (withStore base .readOnly).store.st = .readOnly) ∧
    ((withStaging base [put 5#16 1]).pins.pfailLow = false ∧ (withStaging base [put 5#16 1]).heldInReset = false ∧
      (withStaging base [put 5#16 1]).store.st = .mounted ∧ (withStaging base [put 5#16 1]).tm.staging ≠ []) := by
  and_intros <;> decide +kernel

def longest : Record :=
  { kind := .value, solo := false, relocated := false, key := 0xFEFF#16, txn := 65535, seq := 0xFFFFFFFE
    payload := List.replicate 242 0xA5#8 }

theorem witness_LineCounts :
    longest.length = 242 ∧ (2 : Nat) ≤ 2 ∧ (2 ≤ 16 ∧ 16 * 16 - 29 ≤ 242 ∧ 242 ≤ 16 * 16 - 14) ∧
      (2 ≤ 2 ∧ 16 * 2 - 29 ≤ 3 ∧ 3 ≤ 16 * 2 - 14) := by
  and_intros <;> decide +kernel

theorem witness_RecordRoundTrip :
    longest.fieldsFit = true ∧ longest.operandsFit = true ∧ (longest.relocated = true → longest.solo = true) ∧
      (longest.solo = false → longest.kind = .value ∨ longest.kind = .tombstone) ∧ longest.txn ≤ 65535 ∧
      1 ≤ longest.seq ∧ longest.seq ≤ 0xFFFFFFFE ∧ 240 + longest.lines ≤ 256 := by
  and_intros <;> decide +kernel

/-- A record on lines 254 and 255 of sector 1. -/
def stored (r : Record) : State :=
  { base with flash := (base.flash.endProgram 1 254 (r.lineData 0)).endProgram 1 255 (r.lineData 1) }

/-- A VALUE of key 0005h, sequence 3, five bytes. -/
def value : Record :=
  { kind := .value, solo := true, relocated := false, key := 0x0005#16, txn := 0, seq := 3
    payload := [1#8, 2#8, 3#8, 4#8, 5#8] }

/-- A record that ends at line 255; a blank line; and header counts that are taken, too high, 0, and past line 255. -/
theorem witness_ReadReturns :
    (value.length ≤ 242 ∧ 254 + value.lines = 256 ∧ linesKnown (stored value) 1 254 value.lines ∧
      ∀ i, i < value.lines → ∀ j, j < 16 →
        (stored value).flash.byte (lineNo 1 (254 + i)) j = byteAt (value.lineData i) j) ∧
    (linesKnown base 4 255 1 ∧ ∀ j, j < 16 → base.flash.byte (lineNo 4 255) j = 0xFF#8) ∧
    (∀ c ∈ [(16, 240, 16), (17, 2, 1), (0, 2, 1), (16, 241, 1)],
      (base.readRecord 4 c.2.1 .header (.altered (List.replicate 5 0#8 ++ [BitVec.ofNat 8 c.1]))).1.lines = c.2.2) ∧
    (base.readRecord 4 250 (.lines 16) .stored).1.lines = 6 := by
  and_intros <;> decide +kernel

/-- Lines of undefined bytes of each kind. -/
theorem witness_ReadReturns_undefined : ∀ k ∈ [UndefKind.free, .noEraseStamp, .noOpenStamp],
    undefKind (torn k).flash.undef (lineNo 5 0) = some k ∧ undefKind (torn k).flash.undef (lineNo 5 1) = none := by
  decide +kernel

/-- R103, R9: the READ of those lines, in both forms, returns the record. -/
theorem test_read_returns : ∀ len ∈ [ReadLen.header, .lines 2],
    validRecordAt 254 ((stored value).readRecord 1 254 len .stored).1 = some value := by
  decide +kernel

theorem witness_StampsRoundTrip :
    (1 ≤ 65535 ∧ 65535 ≤ 65535 ∧ 1 ≤ 100000 ∧ 100000 ≤ 100000) ∧
      (1 ≤ 0xFFFFFFFF ∧ 0xFFFFFFFF ≤ 0xFFFFFFFF ∧ 1 ≤ 1 ∧ 1 ≤ 0xFFFFFFFF) := by
  decide

theorem witness_SettingsPayloadRoundTrip :
    full.settings.inRange ∧
      (∀ i : GuardIx, full.guards.get i = GuardSlot.cleared ∨
        ((full.guards.get i).inUse = true ∧ (full.guards.get i).mode ≠ .none ∧
          rangeAcceptable (full.guards.get i).low (full.guards.get i).high = true)) ∧
      (∀ i : GuardIx, (base.guards.get i).fixed = false) := by
  and_intros <;> decide +kernel

def resetPins (resetLow pfailLow vccInRange : Bool) : Pins :=
  { resetLow := resetLow, pfailLow := pfailLow, vccInRange := vccInRange }

theorem witness_Resets :
    base.pins.resetLow = false ∧ ({ base with pins := resetPins true false true } : State).pins.resetLow = true := by
  and_intros <;> decide +kernel

/-- A request of the engine for sector 4 that waits, alone. -/
def asked (op : ArrayOp) : State :=
  { base with arr := base.arr.setSlot .c (some { op := op, inProgress := false }) }

/-- An erase stamp program and an erase that begin and are cut. -/
theorem witness_Resets_cuts : ∀ op ∈ [ArrayOp.program 4 0 (eraseStampLine 2 7), .erase 4],
    waits (asked op) .c op ∧ performs (asked op).grant .c op ∧ (asked op).grant.pins.resetLow = false := by
  decide +kernel

/-- R2, R3, R116: the program of an erase stamp once begun leaves its line written and no stamp there; the erase leaves
the last line of the sector undefined too. -/
theorem test_begun_marks :
    let stamp := (asked (.program 4 0 (eraseStampLine 2 7))).grant.flash
    let erase := (asked (.erase 4)).grant.flash
    (stamp.written = [1024] ∧ undefKind stamp.undef 1024 = some .noEraseStamp ∧ undefKind stamp.undef 1025 = none) ∧
    (undefKind erase.undef 1024 = some .noEraseStamp ∧ undefKind erase.undef 1279 = some .free ∧
      undefKind erase.undef 1280 = none ∧ undefKind erase.undef 1023 = none) := by
  decide +kernel

theorem witness_ReleaseBeginsMount :
    (({ full with pins := resetPins true false true } : State).pins =
        { resetLow := true, pfailLow := false, vccInRange := true } ∧ full.arr = Sequencer.reset) ∧
    (({ full with pins := resetPins false false false } : State).pins =
        { resetLow := false, pfailLow := false, vccInRange := false } ∧ full.arr = Sequencer.reset) ∧
    (({ full with pins := resetPins true true true } : State).pins =
        { resetLow := true, pfailLow := true, vccInRange := true } ∧
      ({ full with pins := resetPins false true false } : State).pins =
        { resetLow := false, pfailLow := true, vccInRange := false }) ∧
    (({ full with pins := resetPins true false false } : State).pins.resetLow = true ∧
      ({ full with pins := resetPins true false false } : State).pins.vccInRange = false ∧
      full.arr = Sequencer.reset) := by
  and_intros <;> decide +kernel

/-- R132: RESET# released under PFAIL# ends in POWER-HOLD with the mount aborted. -/
theorem test_release_under_pfail :
    after (exec .resetReleased { State.reset with pins := resetPins true true true })
      (fun t => (t.store.st, t.store.result, t.arr.m)) = some (.powerHold, .aborted, none) := by
  decide +kernel

/-- The frame of `withFrame`. -/
def frameOf (s : State) (dir : FrameDir) (addr : BitVec 6) : Frame :=
  { dir := dir, addr := addr, snapshot := s.window, out := none }

theorem witness_SoftReset :
    (withFrame full .write 0x3F#6).frameAt (frameOf full .write 0x3F#6) .write 0x3F#6 ∧
      BitVec.getLsbD 0x01#8 0 = true ∧ (withFrame full .write 0x3F#6).pins.pfailLow = false ∧
      (withFrame held .write 0x3F#6).frameAt (frameOf held .write 0x3F#6) .write 0x3F#6 ∧
      (withFrame held .write 0x3F#6).pins.pfailLow = true ∧ BitVec.getLsbD 0xFE#8 0 = false := by
  and_intros <;> decide +kernel

theorem witness_PfailEntersPowerHold_deasserted : (withStore full .powerHold).store.st = .powerHold := by
  decide +kernel

/-- A slot's request that waits. -/
def waiting (s : State) (x : SlotId) (op : ArrayOp) : State :=
  { s with arr := s.arr.setSlot x (some { op := op, inProgress := false }) }

def aging (s : State) (n : Nat) : State := { s with arr := { s.arr with aging := n } }

/-- A GET's READ in H, a line program in L and the erase of a sector in C, all waiting. -/
def allWait (sec : SectorIx) : State :=
  waiting (waiting (waiting base .h (.readRecord 4 10 (.lines 2))) .l (.program 0 10 (List.replicate 16 0#8))) .c (.erase sec)

/-- R107, R108: H before L; C first at a count of 8; C's erase, held by the READ of its sector, does not age. -/
theorem witness_GrantAndSuspension_priority :
    ((allWait 5).grant.arr.busy = some .h ∧ (allWait 5).grant.arr.aging = 1) ∧
    ((aging (allWait 4) 7).grant.arr.busy = some .h ∧ (aging (allWait 4) 7).grant.arr.aging = 7) ∧
    ((aging (allWait 5) 8).grant.arr.busy = some .c ∧ (aging (allWait 5) 8).grant.arr.aging = 0) := by
  and_intros <;> decide +kernel

theorem witness_GrantAndSuspension_grantable :
    grantable (allWait 5) .h ∧ grantable (allWait 5) .l ∧ grantable (allWait 5) .c ∧ ¬ grantable (allWait 4) .c ∧
      grantable (waiting (withStore base .mounting) .m (.readLines 0 0 2)) .m := by
  refine ⟨⟨_, rfl, nofun, nofun, nofun⟩, ⟨_, rfl, nofun, fun _ => by decide +kernel, nofun⟩,
    ⟨_, rfl, ?_, fun _ => by decide +kernel, nofun⟩, ?_, ⟨_, rfl, nofun, nofun, fun _ => ⟨.inl rfl, rfl, rfl, rfl, nofun⟩⟩⟩
  · rintro ⟨_, y, _, ⟨⟩, h, h'⟩
    cases y <;> cases h <;> revert h' <;> decide +kernel
  · rintro ⟨_, h, free, -⟩
    cases h
    exact free ⟨4, .h, _, rfl, rfl, rfl⟩

/-- R110: the aged erase begins SUSPENDING, since H and L wait; with a limit of 0 it begins RUNNING. -/
theorem witness_GrantAndSuspension_erase :
    let none_ := { aging (allWait 5) 8 with settings := { Settings.factory with suspendLimit := 0 } }
    (aging (allWait 5) 8).grant.arr.erase =
      some { slot := .c, cond := .suspending, time := 0, suspensions := 1, limit := Settings.factory.suspendLimit } ∧
    none_.grant.arr.erase = some { slot := .c, cond := .running, time := 0, suspensions := 0, limit := 0 } := by
  decide +kernel

/-- R111: a SUSPENDED erase, with a program waiting in L and with nothing waiting; R106: slot M, alone and behind slot
C. -/
theorem witness_GrantAndSuspension_suspended :
    let idle := withErase (waiting base .c (.erase 5)) .c .suspended
    let busy := waiting idle .l (.program 0 10 (List.replicate 16 0#8))
    let mount := waiting (withStore base .mounting) .m (.readLines 0 0 2)
    (busy.grant.arr.busy = some .l ∧ busy.grant.arr.erase.map EraseRun.cond = some .suspended) ∧
    (idle.grant.arr.busy = some .c ∧ idle.grant.arr.erase.map EraseRun.cond = some .running) ∧
    (mount.grant.arr.busy = some .m ∧ (waiting mount .c (.readRecord 4 2 .header)).grant.arr.busy = some .c) ∧
    base.grant = base := by
  decide +kernel

/-- R110, R112: a READ placed while the erase may still be suspended, and with its count at the limit; a barred erase.
-/
theorem witness_GrantAndSuspension_place :
    let running := withErase (performing base .c (.erase 5)) .c .running
    let limited := { running with arr := { running.arr with
      erase := some { slot := .c, cond := .running, time := 9, suspensions := 24, limit := 24 } } }
    let op := ArrayOp.readRecord 4 10 (.lines 2)
    (running.place .h op).1.arr.erase = some { slot := .c, cond := .suspending, time := 9, suspensions := 3, limit := 24 } ∧
    (limited.place .h op).1.arr.erase = limited.arr.erase ∧
    ((withStore base .unmounted).place .c (.erase 5)).2 = some .notMounted ∧
    (aging (allWait 5) 8).arr.waitingWrite .c = true := by
  decide +kernel

theorem witness_FrameBeginsAndEnds :
    base.win.port = .ready ∧ base.heldInReset = false ∧ BitVec.getLsbD 0x40#8 6 = true ∧
      (BitVec.getLsbD 0x20#8 6 = false ∧ BitVec.getLsbD 0x20#8 7 = false) ∧
      (BitVec.getLsbD 0xA4#8 6 = false ∧ BitVec.getLsbD 0xA4#8 7 = true) ∧
      (State.reset.win.port = .ready ∧ State.reset.heldInReset = true) ∧
      (FirstByte.mk 0x0A#8 true).acrossReset = true ∧
      (withFrame base .read 0x24#6).win.port ≠ .ready := by
  and_intros <;> decide +kernel

/-- Both ends of the read-write locations, a read-only and an undefined one. -/
theorem witness_RegisterWrite :
    ((withFrame full .write 0x08#6).frameAt (frameOf full .write 0x08#6) .write 0x08#6 ∧ readWrite 0x08#6 ∧
      full.win.intEnable &&& 0xF800#16 = 0#16) ∧
    ((withFrame full .write 0x11#6).frameAt (frameOf full .write 0x11#6) .write 0x11#6 ∧ readWrite 0x11#6) ∧
    ((withFrame full .write 0x00#6).frameAt (frameOf full .write 0x00#6) .write 0x00#6 ∧ ¬ readWrite 0x00#6 ∧
      0x00#6 ∉ [0x06#6, 0x07#6, 0x12#6, 0x15#6, 0x20#6, 0x27#6, 0x3F#6]) ∧
    ((withFrame full .write 0x3F#6).frameAt (frameOf full .write 0x3F#6) .write 0x3F#6 ∧ BitVec.getLsbD 0xFE#8 0 = false) ∧
    ((withFrame full .write 0x3E#6).frameAt (frameOf full .write 0x3E#6) .write 0x3E#6 ∧ ¬ readWrite 0x3E#6 ∧
      0x3E#6 ∉ [0x06#6, 0x07#6, 0x12#6, 0x15#6, 0x20#6, 0x27#6, 0x3F#6]) := by
  and_intros <;> decide +kernel

/-- Three commands queued. -/
def three : State := { full with cu := { full.cu with queue := full.cu.queue.tail } }

theorem witness_RegisterWrite_go :
    ((withFrame three .write 0x12#6).frameAt (frameOf three .write 0x12#6) .write 0x12#6 ∧ three.cu.queue.length = 3) ∧
    ((withFrame full .write 0x12#6).frameAt (frameOf full .write 0x12#6) .write 0x12#6 ∧ 4 ≤ full.cu.queue.length) := by
  and_intros <;> decide +kernel

theorem witness_FaultsAndInt :
    (withFrame full .write 0x06#6).frameAt (frameOf full .write 0x06#6) .write 0x06#6 ∧
      (withFrame full .write 0x07#6).frameAt (frameOf full .write 0x07#6) .write 0x07#6 := by
  and_intros <;> decide +kernel

theorem witness_CqPop :
    ((withFrame full .write 0x15#6).frameAt (frameOf full .write 0x15#6) .write 0x15#6 ∧
      full.cu.completions = (plain 0x11#8 0#16).done .ok 1 2 3 ::
        List.replicate 6 ((plain 0x11#8 0#16).done .ok 1 2 3)) ∧
    ((withFrame base .write 0x15#6).frameAt (frameOf base .write 0x15#6) .write 0x15#6 ∧
      base.cu.completions = []) := by
  and_intros <;> decide +kernel

/-- An input buffer of 255 bytes. -/
def almost : State := { base with win := { base.win with input := List.replicate 255 0x5A#8 } }

theorem witness_InputBuffer :
    ((withFrame almost .write 0x20#6).frameAt (frameOf almost .write 0x20#6) .write 0x20#6 ∧
      almost.win.input.length < 256 ∧ (∀ e ∈ almost.cu.queue, e.code ≠ 0x20#8)) ∧
    ((withFrame full .write 0x20#6).frameAt (frameOf full .write 0x20#6) .write 0x20#6 ∧
      256 ≤ full.win.input.length ∧ ∃ e ∈ full.cu.queue, e.code = 0x20#8) ∧
    ((withFrame almost .write 0x27#6).frameAt (frameOf almost .write 0x27#6) .write 0x27#6 ∧
      (∀ e ∈ almost.cu.queue, e.code ≠ 0x20#8)) ∧
    ((withFrame full .write 0x27#6).frameAt (frameOf full .write 0x27#6) .write 0x27#6 ∧
      ∃ e ∈ full.cu.queue, e.code = 0x20#8) := by
  and_intros <;> decide +kernel

/-- A read frame at DATA-OUT whose byte in transfer is the last of the output buffer. -/
def streaming : State :=
  { base with win := { base.win with
    output := [0x11#8, 0x22#8], outPos := 1
    port := .frame { frameOf base .read 0x24#6 with out := some { byte := 0x22#8, advances := true } } } }

theorem witness_DataOut :
    (streaming.frameAt { frameOf base .read 0x24#6 with out := some { byte := 0x22#8, advances := true } } .read
      0x24#6) ∧
    ((withFrame base .read 0x23#6).frameAt (frameOf base .read 0x23#6) .read 0x23#6 ∧ 0x23#6 ≠ 0x24#6 ∧
      (frameOf base .read 0x23#6).out = none) := by
  and_intros <;> decide +kernel

/-! #### The engine's units and its look -/

/-- R85: the lowest ERASE-PENDING sector, below the limit and at it; the lowest RECLAIMING sector, its pass just
fitting; the victim, its pass just fitting; one line less of room leaves no unit in the last two. -/
theorem witness_startsIn :
    (∀ n ∈ [99999, 100000], (scarce 253 none 20 (entry .erasePending n 0 0 0 0)).writable ∧
      lowestIn (scarce 253 none 20 (entry .erasePending n 0 0 0 0)) .erasePending 4) ∧
    (lowestIn (scarce 253 (some 483) 20 (entry .reclaiming 7 1 1 10 244)) .reclaiming 4 ∧
      (∀ j, ((scarce 253 (some 483) 20 (entry .reclaiming 7 1 1 10 244)).sector j).st ≠ .erasePending) ∧
      (scarce 253 (some 483) 20 (entry .reclaiming 7 1 1 10 244)).lw.reclaimRes = none ∧
      (scarce 253 (some 483) 20 (entry .reclaiming 7 1 1 10 244)).heldLines + (10 + 18) =
        (scarce 253 (some 483) 20 (entry .reclaiming 7 1 1 10 244)).freeLines) ∧
    (victimIn (scarce 253 (some 483) 20 (entry .sealed 7 1 1 10 244)) 4 ∧
      ∀ j, ((scarce 253 (some 483) 20 (entry .sealed 7 1 1 10 244)).sector j).st ≠ .erasePending ∧
        ((scarce 253 (some 483) 20 (entry .sealed 7 1 1 10 244)).sector j).st ≠ .reclaiming) ∧
    (unitless (scarce 253 (some 484) 20 (entry .reclaiming 7 1 1 10 244)) ∧
      unitless (scarce 253 (some 484) 20 (entry .sealed 7 1 1 10 244))) := by
  refine ⟨by decide +kernel, by and_intros <;> decide +kernel, by and_intros <;> decide +kernel, ?_, ?_⟩
  · exact ⟨by decide +kernel, .inl ⟨4, by and_intros <;> decide +kernel, by decide +kernel⟩⟩
  · exact ⟨by decide +kernel, .inr ⟨by decide +kernel, by decide +kernel⟩⟩

/-- A RECLAIM-BEGIN that just fits the ACTIVE sector, one that needs the candidate, and one behind a record in
progress. -/
theorem witness_offersIn :
    ((scarce 255 none 20 (entry .sealed 7 1 1 10 244)).lw.idle ∧
      (scarce 255 none 20 (entry .sealed 7 1 1 10 244)).lw.point = some { sector := 0, line := 255 } ∧
      (reclaimBeginRecord 4 20).lines = 256 - 255) ∧
    ((∀ p ∈ (scarce 256 none 20 (entry .sealed 7 1 1 10 244)).lw.point, 256 - p.line < (reclaimBeginRecord 4 20).lines) ∧
      (scarce 256 none 20 (entry .sealed 7 1 1 10 244)).candidate = some 5) ∧
    ({ base.lw with opening := some { candidate := 5, early := true, activation := 4, openingSeq := 20 } } :
      LogWriter).opening ≠ none := by
  and_intros <;> decide +kernel

/-- A unit of sector 4 begun, for the engine itself or for a command, as its number is refused. -/
theorem witness_haltsIn :
    let s := scarce 253 none 0xFFFFFFFF (entry .sealed 7 1 1 10 244)
    let u := fun o : Owner => { inFlight s [(0x41#8, 1#8)] with eng := unitBegun s.eng .beginning .pass 4 o }
    (∀ o ∈ [Owner.automatic, .command 1#8],
      (u o).eng.sector = some 4 ∧ refusesNothing (u o) ∧ (u o).spaceWaiter = false ∧ (u o).eng.owner = o) ∧
    (u .automatic).cu.flies [] 0x41#8 1#8 [] ∧ 0xFFFFFFFF < s.lw.seqCtr + 1 := by
  and_intros <;> first | (refine no_code ?_; decide +kernel) | decide +kernel

/-- The reasons of R84 under AUTO-RECLAIM 1: too few BLANK sectors, a commit and a settings write that wait, a sector
ERASE-PENDING among enough BLANK ones. -/
theorem witness_looksFrom :
    let s := scarce 253 (some 484) 20 (entry .sealed 7 1 1 10 244)
    let f : SettingsFlight := { phase := .waitingSpace, payload := [], seq := 0 }
    let saves := { inFlight s [(0x31#8, 3#8)] with tm := { s.tm with settings := some f } }
    (s.store.st = .mounted ∧ s.eng.st = .idle ∧ s.settings.autoReclaim = 1 ∧ s.blankCount < s.settings.threshold ∧
      s.spaceWaiter = false) ∧
    ((withWaiter s).spaceWaiter = true ∧ (withWaiter s).tm.commit = some waitingCommit ∧
      (withWaiter s).tm.settings = none ∧ (withWaiter s).cu.flies [(0x41#8, 1#8)] 0x23#8 2#8 []) ∧
    (saves.spaceWaiter = true ∧ saves.tm.commit = none ∧ saves.cu.flies [] 0x31#8 3#8 []) ∧
    (¬ base.blankCount < base.settings.threshold ∧
      ((withEntry base 7 (entry .erasePending 6 0 0 0 0)).sector 7).st = .erasePending) := by
  and_intros <;> first | (refine no_code ?_; decide +kernel) | decide +kernel

/-- R84, R85, R99: a RECLAIMING sector without room, enough BLANK sectors and nothing that waits: the engine stays
IDLE. -/
theorem witness_looksFrom_stays :
    let s := { scarce 253 (some 484) 20 (entry .reclaiming 7 1 1 10 244) with
      settings := { Settings.factory with threshold := 2 } }
    unitless s ∧ ¬ s.blankCount < s.settings.threshold ∧ s.spaceWaiter = false ∧ s.store.st = .mounted ∧
      s.eng.st = .idle ∧ s.settings.autoReclaim = 1 :=
  ⟨⟨by decide +kernel, .inl ⟨4, by and_intros <;> decide +kernel, by decide +kernel⟩⟩, by decide +kernel,
    by decide +kernel, by decide +kernel, by decide +kernel, by decide +kernel⟩

/-- Whoever waits for space finds exactly its room: the commit of one operation, the settings write; a line less, and
with the last numbers taken. -/
theorem witness_requestsTo :
    let c := withWaiter (tight 253 none (some 204) 0xFFFFFFFE)
    let w := withSaver (tight 253 none (some 202) 0xFFFFFFFE)
    let n := withWaiter (tight 253 none (some 204) 0xFFFFFFFF)
    (c.writable ∧ c.lw.commitRes = none ∧ c.tm.commit = some waitingCommit ∧ c.tm.settings = none ∧
      c.tm.staging = put 0x0100#16 20 :: [] ∧ c.heldLines + 35 + 272 = c.freeLines ∧
      c.lw.seqCtr + blockOf [put 0x0100#16 20] = 0xFFFFFFFF ∧ c.lw.idle) ∧
    (w.writable ∧ w.lw.commitRes = none ∧ w.tm.commit = none ∧ w.spaceWaiter = true ∧
      w.heldLines + 37 + 272 = w.freeLines ∧ w.lw.seqCtr + 1 = 0xFFFFFFFF ∧ w.cu.flies [(0x41#8, 1#8)] 0x31#8 3#8 []) ∧
    (c.freeLines < c.heldLines + 36 + 272 ∧ c.settings.autoReclaim = 1 ∧ (withAuto c 0).settings.autoReclaim = 0) ∧
    (0xFFFFFFFF < n.lw.seqCtr + 1 ∧ refusesNothing n ∧ n.spaceWaiter = true ∧ oneWrite n) := by
  and_intros <;> first | (refine no_code ?_; decide +kernel) | exact .inr (by decide +kernel) | decide +kernel

/-! #### Foreground commands -/

/-- The commands queued behind the head. -/
def behind : List CmdEntry := [plain 0xEE#8 0#16]

/-- A GET of the lowest and the highest user key, of the settings key, and of a key with no entry, DELETED, hidden. -/
def getting (k : Key) : State :=
  withHead { guarded base 0 0x0006#16 0x0006#16 .hidden false with
    dir := dirEntry 0x0001#16 true 1 4 2 5 3 :: dir ++ [dirEntry 0xFEFF#16 true 1 6 2 5 3, dirEntry 0xFF01#16 true 1 8 5 52 4] }
    (plain 0x10#8 k)

theorem witness_GetTaken :
    ((getting 0x0001#16).heads (plain 0x10#8 0x0001#16) behind ∧ readsAdmitted (getting 0x0001#16) ∧
      getAccepts 0x0001#16 ∧ (getting 0x0001#16).guardMode 0x0001#16 ≠ .hidden ∧
      (getting 0x0001#16).entry 0x0001#16 = some (dirEntry 0x0001#16 true 1 4 2 5 3)) ∧
    ((getting 0xFEFF#16).heads (plain 0x10#8 0xFEFF#16) behind ∧ getAccepts 0xFEFF#16 ∧
      (getting 0xFEFF#16).entry 0xFEFF#16 = some (dirEntry 0xFEFF#16 true 1 6 2 5 3)) ∧
    ((getting 0xFF01#16).heads (plain 0x10#8 0xFF01#16) behind ∧ getAccepts 0xFF01#16 ∧
      (getting 0xFF01#16).entry 0xFF01#16 = some (dirEntry 0xFF01#16 true 1 8 5 52 4)) ∧
    ((getting 0x0000#16).heads (plain 0x10#8 0x0000#16) behind ∧ ¬ getAccepts 0x0000#16 ∧ ¬ getAccepts 0xFF00#16) ∧
    ((getting 0x0006#16).heads (plain 0x10#8 0x0006#16) behind ∧ getAccepts 0x0006#16 ∧
      (getting 0x0006#16).guardMode 0x0006#16 = .hidden) ∧
    ((getting 0x0007#16).guardMode 0x0007#16 ≠ .hidden ∧ (getting 0x0007#16).entry 0x0007#16 = none) ∧
    ((getting 0x0009#16).entry 0x0009#16 = some (dirEntry 0x0009#16 false 0 2 1 0 16)) ∧
    ((getting 0x0001#16).arr.busy = none ∧ (getting 0x0001#16).arr.erase = none ∧ (getting 0x0001#16).arr.l = none ∧
      (getting 0x0001#16).arr.c = none) := by
  and_intros <;> decide +kernel

/-- What a READ returns when the array returns these bytes. -/
def result (bs : List Byte) (n : Nat) : ReadResult :=
  { bytes := bs, lines := n, checkOk := recordCheckOk bs n }

def reading : State :=
  let s := performing base .h (.readRecord 1 2 (.lines 2))
  { s with cu := { s.cu with executing := some (snapshotOf (plain 0x10#8 0x0005#16) (dirEntry 0x0005#16 true 1 2 2 5 3)) } }

theorem witness_GetReadEnd :
    reading.cu.executing = some (snapshotOf (plain 0x10#8 0x0005#16) (dirEntry 0x0005#16 true 1 2 2 5 3)) ∧
    reading.arr.busy = some .h ∧
    reading.arr.h = some { op := .readRecord 1 2 (.lines 2), inProgress := true } ∧
    (reading.readRecord 1 2 (.lines 2) (.altered value.bytes)).1 = result value.bytes 2 ∧
    ((result value.bytes 2).checkOk = true ∧ parseRecord (result value.bytes 2).bytes = some value ∧
      value.key = 0x0005#16 ∧ value.seq = 3) ∧
    (reading.readRecord 1 2 (.lines 2) .stored).1.checkOk = false ∧
    (reading.cu.queue = [] ∧ 8 ≤ (full.cu.completions ++ full.cu.completions.take 0).length + 1 + 0 ∧
      (withHead reading (plain 0x11#8 0#16)).cu.queue = plain 0x11#8 0#16 :: behind ∧
      (Instr.next, (plain 0x11#8 0#16).code) ∈ takes ∧ ∀ p ∈ takes, p.2 ≠ (plain 0xEE#8 0#16).code) := by
  and_intros <;> decide +kernel

/-- R153: in the happening of the GET's completion the NEXT behind it is taken, and the code behind that waits. -/
theorem test_get_read_end_takes : after (exec (.getReadEnd .stored) (withHead reading (plain 0x11#8 0x0005#16)))
    (fun t => (t.cu.completions.map (fun c => (c.code, c.status)), t.cu.queue)) =
    some ([(0x10#8, .arrayFault), (0x11#8, .ok)], behind) := by decide +kernel

theorem witness_Next :
    (walkStore 0x11#8 0x0010#16).heads (plain 0x11#8 0x0010#16) behind ∧ readsAdmitted (walkStore 0x11#8 0x0010#16) ∧
    dirSorted walkDir = true ∧
    (nextQualifies (walkStore 0x11#8 0x0010#16) 0x0010#16 (dirEntry 0x0030#16 true 1 7 2 4 704) ∧
      ∀ x ∈ walkDir, nextQualifies (walkStore 0x11#8 0x0010#16) 0x0010#16 x → 0x0030#16 ≤ x.key) ∧
    (∀ x ∈ walkDir, ¬ nextQualifies (walkStore 0x11#8 0x0030#16) 0x0030#16 x) := by
  and_intros <;> decide +kernel

/-- A PUT or DELETE of a key and length with a staging list and 242 bytes in the input buffer. -/
def staging (code : Byte) (k : Key) (len : Byte) (l : List Staged) : State :=
  withHead { withStaging (guarded base 0 0x0006#16 0x0006#16 .writeGuarded false) l with
    win := { base.win with input := List.replicate 242 0x5A#8 } } (cmd code k len 0#8 0#8 0#8 0#8)

/-- Fifteen operations of 1806 bytes: one more of 242 fills the list. -/
def fifteen : List Staged :=
  put 0x0100#16 126 :: (List.range 14).map (fun n => put (BitVec.ofNat 16 (n + 0x0101)) 120)

theorem witness_PutStagesOrRefuses_stages :
    stagingTaken (staging 0x20#8 0xFEFF#16 242#8 fifteen) (cmd 0x20#8 0xFEFF#16 242#8 0#8 0#8 0#8 0#8) behind 0x20#8 ∧
    (staging 0x20#8 0xFEFF#16 242#8 fifteen).tm.commit = none ∧ userKey 0xFEFF#16 ∧ (242#8).toNat ≤ 242 ∧
    (242#8).toNat ≤ (staging 0x20#8 0xFEFF#16 242#8 fifteen).win.input.length ∧
    (staging 0x20#8 0xFEFF#16 242#8 fifteen).guardMode 0xFEFF#16 = .none ∧
    ((∀ o ∈ fifteen, o.key ≠ 0xFEFF#16) ∧ fifteen.length = 15 ∧ stagedBytesOf fifteen + (242#8).toNat = 2048 ∧
      (staging 0x20#8 0xFEFF#16 242#8 fifteen).dir.length +
        (staging 0x20#8 0xFEFF#16 242#8 fifteen).newStaged + 1 ≤ 1024) ∧
    stagingTaken (staging 0x20#8 0x0010#16 128#8 full.tm.staging) (cmd 0x20#8 0x0010#16 128#8 0#8 0#8 0#8 0#8) behind
      0x20#8 ∧
    (full.tm.staging = full.tm.staging.take 15 ++ put 0x0010#16 128 :: [] ∧
      (∀ x ∈ full.tm.staging.take 15, x.key ≠ 0x0010#16) ∧ stagedBytesOf full.tm.staging - 128 + 128 = 2048) := by
  and_intros <;> decide +kernel

theorem witness_PutStagesOrRefuses_refuses :
    stagingTaken (withCommit (staging 0x20#8 0x0001#16 0#8 []) committing) (cmd 0x20#8 0x0001#16 0#8 0#8 0#8 0#8 0#8)
      behind 0x20#8 ∧
    (withCommit (staging 0x20#8 0x0001#16 0#8 []) committing).tm.commit ≠ none ∧
    ((staging 0x20#8 0xFF00#16 0#8 []).tm.commit = none ∧ ¬ userKey 0xFF00#16 ∧ ¬ userKey 0x0000#16) ∧
    (242 < (243#8).toNat ∧ base.win.input.length < (1#8).toNat) ∧
    ((staging 0x20#8 0x0006#16 0#8 []).guardMode 0x0006#16 ≠ .none ∧ userKey 0x0006#16) ∧
    ((staging 0x20#8 0x0010#16 129#8 full.tm.staging).guardMode 0x0010#16 = .none ∧
      2048 < stagedBytesOf full.tm.staging - 128 + (129#8).toNat) ∧
    ((∀ o ∈ full.tm.staging, o.key ≠ 0x0011#16) ∧ 16 ≤ full.tm.staging.length) ∧
    ((staging 0x20#8 0x0100#16 0#8 []).entry 0x0100#16 = none ∧
      1024 < (List.replicate 1024 (dirEntry 0x0010#16 true 1 2 2 5 3)).length + 0 + 1) := by
  and_intros <;> decide +kernel

theorem witness_Delete :
    stagingTaken (staging 0x21#8 0x0010#16 0#8 full.tm.staging) (cmd 0x21#8 0x0010#16 0#8 0#8 0#8 0#8 0#8) behind
      0x21#8 ∧
    (withCommit (staging 0x21#8 0x0001#16 0#8 []) committing).tm.commit ≠ none ∧ ¬ userKey 0x0000#16 ∧
    (staging 0x21#8 0x0006#16 0#8 []).guardMode 0x0006#16 ≠ .none ∧
    ((staging 0x21#8 0x0010#16 0#8 full.tm.staging).guardMode 0x0010#16 = .none ∧
      full.tm.staging = full.tm.staging.take 15 ++ put 0x0010#16 128 :: [] ∧
      (∀ x ∈ full.tm.staging.take 15, x.key ≠ 0x0010#16) ∧
      (staging 0x21#8 0x0010#16 0#8 full.tm.staging).isPresent 0x0010#16 = true ∧
      (staging 0x21#8 0x0001#16 0#8 full.tm.staging).isPresent 0x0001#16 = false) ∧
    ((staging 0x21#8 0x0010#16 0#8 [del 0x0010#16]).tm.staging = [] ++ del 0x0010#16 :: []) ∧
    ((∀ o ∈ fifteen, o.key ≠ 0x0010#16) ∧ fifteen.length < 16 ∧
      (staging 0x21#8 0x0010#16 0#8 fifteen).isPresent 0x0010#16 = true) ∧
    (16 ≤ (put 0x0011#16 0 :: fifteen).length ∧ (∀ o ∈ put 0x0011#16 0 :: fifteen, o.key ≠ 0x0010#16)) ∧
    (staging 0x21#8 0x0009#16 0#8 fifteen).isPresent 0x0009#16 = false := by
  and_intros <;> decide +kernel

theorem witness_Discard :
    (staging 0x22#8 0#16 0#8 fifteen).heads (cmd 0x22#8 0#16 0#8 0#8 0#8 0#8 0#8) behind ∧
    ((staging 0x22#8 0#16 0#8 fifteen).store.st = .mounted ∧ (staging 0x22#8 0#16 0#8 fifteen).tm.commit = none) ∧
    (withCommit (staging 0x22#8 0#16 0#8 fifteen) committing).tm.commit ≠ none ∧
    (∀ st ∈ [StoreState.readOnly, .unmounted, .powerHold, .formatting],
      (withStore (staging 0x22#8 0#16 0#8 fifteen) st).heads (cmd 0x22#8 0#16 0#8 0#8 0#8 0#8 0#8) behind ∧
        (withStore (staging 0x22#8 0#16 0#8 fifteen) st).store.st = st) := by
  and_intros <;> decide +kernel

/-- SETTING at both ends of each range, and just past them. -/
theorem witness_Setting :
    (withHead (withStore base .readOnly) (cmd 0x30#8 0#16 0#8 1#8 8#8 0#8 0#8)).heads
      (cmd 0x30#8 0#16 0#8 1#8 8#8 0#8 0#8) behind ∧
    (withStore base .readOnly).store.st ≠ .formatting ∧ (withStore base .readOnly).store.st ≠ .mounted ∧
    (withStore base .readOnly).spaceWaiter = false ∧
    (withHead base (cmd 0x30#8 0#16 0#8 1#8 9#8 0#8 0#8)).engineRests ∧
    answers (exec .setting (withHead base (cmd 0x30#8 0#16 0#8 2#8 0#8 0#8 0#8))) = true := by
  and_intros <;> decide +kernel

/-- A commit that waits for space without room, AUTO-RECLAIM 1, and SETTING of AUTO-RECLAIM 0 at the head. -/
def unwaiting : State :=
  let s := withWaiter base
  let blankless : Vector SectorEntry 32 := Vector.ofFn (fun i : SectorIx =>
    if i = 0 then entry .active 9 3 15 3 5 else { entry .sealed 7 2 9 254 0 with mark := true })
  withHead { s with sectors := blankless } (cmd 0x30#8 0#16 0#8 2#8 0#8 0#8 0#8)

theorem witness_Setting_unwaits :
    unwaiting.heads (cmd 0x30#8 0#16 0#8 2#8 0#8 0#8 0#8) behind ∧ unwaiting.store.st ≠ .formatting ∧
    unwaiting.settings.autoReclaim = 1 ∧ unwaiting.tm.settings = none ∧
    unwaiting.freeLines < unwaiting.heldLines + 35 + 272 ∧ unwaiting.cu.flies [(0x41#8, 1#8)] 0x23#8 2#8 [] := by
  and_intros <;> first | (refine no_code ?_; decide +kernel) | decide +kernel

/-- SETTING of AUTO-RECLAIM 0 while a commit or a settings write waits and there is room. -/
def granting (s : State) : State :=
  withHead s (cmd 0x30#8 0#16 0#8 2#8 0#8 0#8 0#8)

theorem witness_Setting_grants : ∀ s ∈ [withWaiter base, withSaver base],
    (granting s).heads (cmd 0x30#8 0#16 0#8 2#8 0#8 0#8 0#8) behind ∧ (granting s).store.st ≠ .formatting ∧
    (granting s).settings.autoReclaim = 1 ∧ settingFits 2 0 ∧ (granting s).writable ∧ (granting s).lw.commitRes = none ∧
    (granting s).heldLines + 37 + 272 ≤ (granting s).freeLines ∧ (granting s).lw.idle ∧
    (granting s).lw.point = some { sector := 0, line := 10 } ∧ (granting s).spaceWaiter = true := by
  decide +kernel

/-- R72: the commit is granted and its record's first line is in progress, and SETTING alone is answered. -/
theorem test_setting_grants : after (exec .setting (granting (withWaiter base)))
    (fun t => (t.cu.completions.map Completion.code, t.lw.commitRes, t.arr.busy, t.tm.commit.map CommitFlight.phase)) =
    some ([0x30#8], some 34, some .l, some .writing) := by
  decide +kernel

/-- R166, R167: the waiting commit's NO-SPACE is posted ahead of SETTING's completion. -/
theorem test_setting_posts_last : after (exec .setting unwaiting)
    (fun t => t.cu.completions.map (fun c => (c.code, c.status))) = some [(0x23#8, .noSpace), (0x30#8, .ok)] := by
  decide +kernel

/-- RECLAIM-THRESHOLD raised over the BLANK count: the IDLE engine finds the pass of sector 4 that fits, or stalls. -/
def raising (held : Nat) : State :=
  let s := scarce 253 (some held) 20 (entry .sealed 7 1 1 10 244)
  withHead { s with settings := { s.settings with threshold := 2 } } (cmd 0x30#8 0#16 0#8 1#8 3#8 0#8 0#8)

theorem witness_Setting_looks :
    (∀ held ∈ [483, 484], (raising held).heads (cmd 0x30#8 0#16 0#8 1#8 3#8 0#8 0#8) behind ∧
      (raising held).store.st ≠ .formatting ∧ settingFits 1 3 ∧ (raising held).spaceWaiter = false ∧
      (raising held).store.st = .mounted ∧ (raising held).eng.st = .idle ∧ (raising held).settings.autoReclaim = 1 ∧
      (raising held).blankCount < (settingWritten (raising held).settings 1 3).threshold) ∧
    (victimIn (raising 483) 4 ∧ (∀ j, ¬ passable (raising 484) j)) := by
  and_intros <;> decide +kernel

/-- R167: the pass starts for the engine itself; without room STALLED is set and RECLAIM-STALLED raised. -/
theorem test_setting_starts_engine :
    after (exec .setting (raising 483)) (fun t => (t.eng.st, t.eng.owner, t.eng.sector, t.eng.stalled)) =
      some (.beginning, .automatic, some 4, false) ∧
    after (exec .setting (raising 484)) (fun t => (t.eng.st, t.eng.stalled, t.indicated .reclaimStalled)) =
      some (.idle, true, true) := by
  decide +kernel

theorem witness_Setting_ranges :
    (∀ p ∈ [(1, 2), (1, 8), (2, 0), (2, 1), (3, 0), (3, 24)], settingFits p.1 p.2) ∧
    (∀ p ∈ [(0, 0), (4, 0), (1, 1), (1, 9), (2, 2), (3, 25)], ¬ settingFits p.1 p.2) := by
  decide

def guarding (code slot mode : Byte) (low : Key) (hi lo : Byte) : State :=
  withHead (guarded base 7 0x0100#16 0x01FF#16 .writeGuarded true) (cmd code low 0#8 slot mode hi lo)

theorem witness_GuardCommands_set :
    (guarding 0x38#8 8#8 0#8 0x0001#16 0#8 1#8).heads (cmd 0x38#8 0x0001#16 0#8 8#8 0#8 0#8 1#8) behind ∧
    (guarding 0x38#8 8#8 0#8 0x0001#16 0#8 1#8).store.st ≠ .formatting ∧ 8 ≤ (8#8).toNat ∧
    (7#8).toNat = (7 : GuardIx).val ∧ (0#8).toNat = (0 : GuardIx).val ∧ 2 < (3#8).toNat ∧
    (badRange 0x0000#16 0x0001#16 ∧ badRange 0x0001#16 0xFFFF#16 ∧ badRange 0x0002#16 0x0001#16) ∧
    (¬ badRange 0x0001#16 0x0001#16 ∧ ¬ badRange 0x0001#16 0xFFFE#16) ∧
    ((guarding 0x38#8 7#8 0#8 0x0001#16 0#8 1#8).guards.get 7).fixed = true ∧
    ((guarding 0x38#8 0#8 2#8 0x0001#16 0xFF#8 0xFE#8).guards.get 0).fixed = false := by
  and_intros <;> decide +kernel

theorem witness_GuardCommands_fix :
    (guarding 0x39#8 7#8 0#8 0#16 0#8 0#8).heads (cmd 0x39#8 0#16 0#8 7#8 0#8 0#8 0#8) behind ∧
    (guarding 0x39#8 7#8 0#8 0#16 0#8 0#8).store.st ≠ .formatting ∧
    ((guarding 0x39#8 0#8 0#8 0#16 0#8 0#8).guards.get 0).inUse = false ∧
    ((guarding 0x39#8 7#8 0#8 0#16 0#8 0#8).guards.get 7).inUse = true := by
  and_intros <;> decide +kernel

theorem witness_SectorQuery :
    (withHead base (cmd 0x40#8 0#16 0#8 31#8 1#8 0#8 0#8)).heads (cmd 0x40#8 0#16 0#8 31#8 1#8 0#8 0#8) behind ∧
    32 ≤ (32#8).toNat ∧ 2 ≤ (2#8).toNat ∧ (31#8).toNat = (31 : SectorIx).val ∧ (1#8).toNat ≤ 1 ∧
    ((base.sector 31).st = .blank ∧ (base.sector 0).st = .active ∧ (base.sector 1).st = .sealed) := by
  and_intros <;> decide +kernel

theorem witness_TakesHeldBackOrUnknown_unknown :
    (withHead base (plain 0x00#8 0#16)).heads (plain 0x00#8 0#16) behind ∧
    (0x00#8 : Byte) ∉ [0x10#8, 0x11#8, 0x20#8, 0x21#8, 0x22#8, 0x23#8, 0x30#8, 0x31#8, 0x38#8, 0x39#8, 0x40#8, 0x41#8,
      0x50#8, 0x51#8] := by
  and_intros <;> decide +kernel

theorem witness_TakesHeldBackOrUnknown_heldBack :
    (Instr.get, 0x10#8) ∈ takes ∧ base.cu.queue = [] ∧ (withStore base .mounting).store.st = .mounting ∧
    reading.cu.executing ≠ none ∧ 8 ≤ full.cu.completions.length + full.cu.inFlight.length ∧
    ((withHead base (plain 0x11#8 0#16)).cu.queue = plain 0x11#8 0#16 :: behind ∧ (plain 0x11#8 0#16).code ≠ 0x10#8) := by
  and_intros <;> decide +kernel

theorem witness_StoreStateAnswers :
    (∀ st ∈ [StoreState.unmounted, .formatting, .powerHold, .readOnly, .mounted],
      (withStore (withHead base (plain 0x50#8 0#16)) st).heads (plain 0x50#8 0#16) behind ∧
        (withStore (withHead base (plain 0x50#8 0#16)) st).store.st = st) ∧
    (∀ p ∈ takes, p.2 ∈ definedCodes) ∧
    ({ base with store := { base.store with st := .powerHold, dirValid := false } } : State).store.dirValid = false ∧
    held.pins.pfailLow = true := by
  and_intros <;> decide +kernel

/-! #### Background commands -/

/-- A COMMIT whose reservation just fits and whose one record just fits the ACTIVE sector, or just does not. -/
def commitTight (line held : Nat) : State :=
  withHead (withStaging (tight line none (some held) 0xFFFFFFFE) [put 0x0100#16 20]) (plain 0x23#8 0#16)

theorem witness_CommitStarts_conditions :
    (commitTight 253 204).heads (plain 0x23#8 0#16) behind ∧ (commitTight 253 204).writable ∧
    (commitTight 253 204).tm.staging = put 0x0100#16 20 :: [] ∧ noWrite (commitTight 253 204) ∧
    (∀ o ∈ [put 0x0100#16 20], (commitTight 253 204).guardMode o.key = .none) ∧ (0x0100#16 : Key) ≠ 0xFF01#16 ∧
    (commitTight 253 204).dir.length + (commitTight 253 204).newStaged ≤ 1024 ∧ (commitTight 253 204).lw.idle ∧
    (commitTight 253 204).lw.commitRes = none ∧
    (commitTight 253 204).heldLines + amountOf [put 0x0100#16 20] + 272 = (commitTight 253 204).freeLines ∧
    (commitTight 253 204).lw.seqCtr + blockOf [put 0x0100#16 20] = 0xFFFFFFFF := by
  and_intros <;> decide +kernel

theorem witness_CommitStarts_clauses :
    ((commitTight 253 204).lw.point = some { sector := 0, line := 253 } ∧
      ((put 0x0100#16 20).record true 0 0xFFFFFFFE).lines = 256 - 253) ∧
    ((commitTight 254 203).heldLines + amountOf [put 0x0100#16 20] + 272 = (commitTight 254 203).freeLines ∧
      ∀ p, (commitTight 254 203).lw.point = some p → 256 - p.line < 3) ∧
    (commitTight 254 203).candidate = some 5 ∧ (commitTight 254 203).eng.st = .copying := by
  refine ⟨by decide +kernel, ⟨by decide +kernel, ?_⟩, by decide +kernel, by decide +kernel⟩
  rintro p ⟨⟩
  decide

/-- The last block but one number short, in the rest state of a store. -/
def numberless (code : Byte) : State :=
  withHead { withStaging base [put 0x0100#16 20] with lw := { base.lw with seqCtr := 0xFFFFFFFF } } (plain code 0#16)

theorem witness_CommitStarts_refused :
    (numberless 0x23#8).writable ∧ (numberless 0x23#8).lw.idle ∧ (numberless 0x23#8).engineRests ∧
    (numberless 0x23#8).heldLines + amountOf [put 0x0100#16 20] + 272 ≤ (numberless 0x23#8).freeLines ∧
    0xFFFFFFFF < (numberless 0x23#8).lw.seqCtr + blockOf [put 0x0100#16 20] ∧ refusesNothing (numberless 0x23#8) ∧
    (∀ p ∈ (numberless 0x23#8).cu.inFlight, p.1 ≠ 0x23#8) := by
  and_intros <;> first | (refine no_code ?_; decide +kernel) | decide +kernel

/-- R10, R73: the refused block ends the commit READ-ONLY, the store READ-ONLY for SEQUENCE and the list held. -/
theorem test_commit_numberless : after (exec .commit (numberless 0x23#8))
    (fun t => (t.store.st, t.store.cause, t.tm.held, t.tm.staging, t.cu.completions.map Completion.status)) =
    some (.readOnly, .sequence, true, [put 0x0100#16 20], [.readOnly]) := by decide +kernel

theorem witness_CommitRefused :
    (withHead base (plain 0x23#8 0#16)).heads (plain 0x23#8 0#16) behind ∧ base.store.st = .mounted ∧
    base.engineRests ∧ (base.tm.staging = [] ∧ base.tm.commit = none) ∧
    (withCommit base committing).tm.commit ≠ none ∧
    ((withStaging (guarded base 0 0x0006#16 0x0006#16 .hidden false) [del 0x0006#16]).tm.staging ≠ [] ∧ noWrite base ∧
      (guarded base 0 0x0006#16 0x0006#16 .hidden false).guardMode 0x0006#16 ≠ .none) ∧
    1024 < (List.replicate 1025 (dirEntry 0x0010#16 true 1 2 2 5 3)).length + 0 := by
  and_intros <;> decide +kernel

theorem witness_CommitWaits :
    (commitTight 253 205).heads (plain 0x23#8 0#16) behind ∧ (commitTight 253 205).tm.staging ≠ [] ∧
    noWrite (commitTight 253 205) ∧ (∀ o ∈ [put 0x0100#16 20], (commitTight 253 205).guardMode o.key = .none) ∧
    ¬ 1024 < (commitTight 253 205).dir.length + (commitTight 253 205).newStaged ∧
    (commitTight 253 205).lw.stopped = false ∧ (commitTight 253 205).lw.commitRes = none ∧
    (commitTight 253 205).freeLines < (commitTight 253 205).heldLines + amountOf [put 0x0100#16 20] + 272 ∧
    ((commitTight 253 205).settings.autoReclaim = 1 ∧ (commitTight 253 205).eng.st ≠ .idle) ∧
    ((withAuto (commitTight 253 205) 0).settings.autoReclaim = 0 ∧
      ∀ p ∈ (withAuto (commitTight 253 205) 0).cu.inFlight, p.1 ≠ 0x23#8) := by
  and_intros <;> first | (refine no_code ?_; decide +kernel) | decide +kernel

/-- One BLANK sector: 257 free lines, too few for a commit or a settings write, with an IDLE engine and sector 4 as
given. -/
def crowded (code : Byte) (x : SectorEntry) : State :=
  withHead (withStaging (withEntry (scarce 253 none 20 x) 6 (entry .sealed 7 2 9 254 0)) [put 0x0100#16 20])
    (plain code 0#16)

/-- An IDLE engine with a victim for the waiting commit or settings write, and without one. -/
theorem witness_WaitsIdle :
    (∀ code ∈ [0x23#8, 0x31#8], ∀ live ∈ [10, 254],
      (crowded code (entry .sealed 7 1 1 live (254 - live))).heads (plain code 0#16) behind ∧
      (crowded code (entry .sealed 7 1 1 live (254 - live))).writable ∧
      noWrite (crowded code (entry .sealed 7 1 1 live (254 - live))) ∧
      (crowded code (entry .sealed 7 1 1 live (254 - live))).settings.autoReclaim = 1 ∧
      (crowded code (entry .sealed 7 1 1 live (254 - live))).eng.st = .idle ∧
      (crowded code (entry .sealed 7 1 1 live (254 - live))).freeLines < 0 + amountOf [put 0x0100#16 20] + 272 ∧
      (crowded code (entry .sealed 7 1 1 live (254 - live))).freeLines < 0 + 37 + 272) ∧
    victimIn (crowded 0x23#8 (entry .sealed 7 1 1 10 244)) 4 ∧
    (∀ j, ¬ passable (crowded 0x23#8 (entry .sealed 7 1 1 254 0)) j) := by
  and_intros <;> decide +kernel

/-- R71, R72, R84, R99: the waiting commit starts a pass, or is ended NO-SPACE as the engine stalls. -/
theorem test_commit_waits_idle :
    after (exec .commit (crowded 0x23#8 (entry .sealed 7 1 1 10 244)))
      (fun t => (t.tm.commit.map CommitFlight.phase, t.eng.st, t.eng.owner, t.cu.completions)) =
      some (some .waitingSpace, .beginning, .automatic, []) ∧
    after (exec .commit (crowded 0x23#8 (entry .sealed 7 1 1 254 0)))
      (fun t => (t.tm.commit, t.eng.stalled, t.indicated .reclaimStalled, t.cu.completions.map Completion.status)) =
      some (none, true, true, [.noSpace]) := by
  decide +kernel

theorem witness_SaveSettings_refused :
    (numberless 0x31#8).heads (plain 0x31#8 0#16) behind ∧ (numberless 0x31#8).writable ∧ noWrite (numberless 0x31#8) ∧
    (numberless 0x31#8).lw.commitRes = none ∧ (numberless 0x31#8).heldLines + 37 + 272 ≤ (numberless 0x31#8).freeLines ∧
    0xFFFFFFFF < (numberless 0x31#8).lw.seqCtr + 1 ∧ refusesNothing (numberless 0x31#8) ∧
    (∀ p ∈ (numberless 0x31#8).cu.inFlight, p.1 ≠ 0x31#8) := by
  and_intros <;> first | (refine no_code ?_; decide +kernel) | decide +kernel

/-- R10, R82: the settings write ends READ-ONLY, and the staging list is held. -/
theorem test_save_numberless : after (exec .saveSettings (numberless 0x31#8))
    (fun t => (t.store.st, t.store.cause, t.tm.held, t.tm.settings, t.cu.completions.map Completion.status)) =
    some (.readOnly, .sequence, true, none, [.readOnly]) := by decide +kernel

def saveTight (line held : Nat) : State :=
  withHead (tight line none (some held) 0xFFFFFFFE) (plain 0x31#8 0#16)

theorem witness_SaveSettings :
    (saveTight 251 204).heads (plain 0x31#8 0#16) behind ∧ (saveTight 251 204).writable ∧
    (saveTight 251 204).engineRests ∧ noWrite (saveTight 251 204) ∧ ¬ noWrite (withCommit base committing) ∧
    ((saveTight 251 204).guardMode 0xFF01#16 = .none ∧
      (guarded base 2 0xFF00#16 0xFF0F#16 .writeGuarded false).guardMode 0xFF01#16 ≠ .none) ∧
    ((saveTight 251 204).entry 0xFF01#16 = none ∧ (saveTight 251 204).dir.length < 1024) ∧
    ((saveTight 251 204).lw.commitRes = none ∧
      (saveTight 251 204).heldLines + 37 + 272 = (saveTight 251 204).freeLines ∧
      (saveTight 251 204).lw.seqCtr + 1 = 0xFFFFFFFF ∧ (saveTight 251 204).lw.idle ∧
      (saveTight 251 204).lw.point = some { sector := 0, line := 251 } ∧ 5 = 256 - 251) ∧
    ((saveTight 251 205).freeLines < (saveTight 251 205).heldLines + 37 + 272 ∧
      (saveTight 251 205).settings.autoReclaim = 1 ∧ (saveTight 251 205).eng.st ≠ .idle) ∧
    (∀ p ∈ (withAuto (saveTight 251 205) 0).cu.inFlight, p.1 ≠ 0x31#8) := by
  and_intros <;> first | (refine no_code ?_; decide +kernel) | decide +kernel

theorem witness_SaveSettings_wide : 1024 ≤ (List.replicate 1024 (dirEntry 0x0010#16 true 1 2 2 5 3)).length := by
  decide +kernel

/-- A commit of two operations with `k` records reported written. -/
def offering (k : Nat) : CommitFlight :=
  { n := 2, amount := 36, phase := .writing, first := 18, txn := 65534, nextIx := k
    written := List.replicate k { sector := 0, line := 8 } }

def offers (k : Nat) : State :=
  withCommit (withStaging (lineAt base 255) [del 0x0005#16, del 0x0010#16]) (offering k)

theorem witness_CommitRecordOffer :
    ((offers 1).tm.commit = some (offering 1) ∧ (offering 1).n = (offers 1).tm.staging.length ∧
      (offering 1).written.length = (offering 1).nextIx ∧ (offers 1).tm.staging[1]? = some (del 0x0010#16) ∧
      ((del 0x0010#16).record false 65534 19).lines = 256 - 255) ∧
    ((offers 2).tm.commit = some (offering 2) ∧ (offering 2).nextIx = (offering 2).n ∧
      (offers 2).tm.staging[2]? = none ∧ (commitRecord 2 65534 20).lines = 256 - 255) ∧
    ((offers 1).writable ∧ (offers 1).lw.idle ∧ (offers 1).lw.point = some { sector := 0, line := 255 } ∧
      (offers 1).engineRests) := by
  and_intros <;> decide +kernel

/-- The Log Writer stopped by PFAIL# with a COMMIT and a RECLAIM in flight. -/
def stopped (k : Nat) : State :=
  let s := withStore (inFlight (offers k) [(0x41#8, 1#8), (0x23#8, 2#8)]) .powerHold
  { s with lw := { s.lw with stopped := true, commitRes := some 3 } }

theorem witness_CommitRecordOffer_refused :
    (stopped 1).store.st = .powerHold ∧ (stopped 1).lw.stopped = true ∧
      (stopped 1).cu.flies [(0x41#8, 1#8)] 0x23#8 2#8 [] ∧
      halted (haltedAs (offers 1) .readOnly) .readOnly := by
  and_intros <;> first | (refine no_code ?_; decide +kernel) | decide +kernel

def reclaiming (s : State) : State := withHead s (plain 0x41#8 0#16)

/-- Both SEALED sectors marked pending. -/
def marked : State :=
  withEntry (withEntry base 1 { entry .sealed 7 1 2 2 252 with mark := true }) 2
    { entry .sealed 7 2 9 0 254 with mark := true }

/-- A RECLAIMING sector of 10 live lines, with a commit reservation that just leaves room for its pass, or does not. -/
def resumable (held : Nat) : State :=
  scarce 253 (some held) 20 (entry .reclaiming 7 1 1 10 244)

theorem witness_Reclaim :
    (reclaiming base).heads (plain 0x41#8 0#16) behind ∧ (reclaiming base).writable ∧
    (withEngine base .copying 2).eng.st ≠ .idle ∧
    (marked.eng.st = .idle ∧ marked.engineRests ∧
      ∀ v, (marked.sector v).st ≠ .erasePending ∧ ¬ ((marked.sector v).st = .reclaiming ∨
        ((marked.sector v).st = .sealed ∧ 1 ≤ (marked.sector v).dead ∧ (marked.sector v).mark = false))) ∧
    ((withEntry base 31 (entry .erasePending 99999 0 0 0 0)).eng.st = .idle ∧
      lowestIn (withEntry base 31 (entry .erasePending 99999 0 0 0 0)) .erasePending 31) := by
  and_intros <;> decide +kernel

/-- R101: the resumed pass fits or does not, and so does the new victim. -/
theorem witness_Reclaim_noSpace :
    ((resumable 483).eng.st = .idle ∧ lowestIn (resumable 483) .reclaiming 4 ∧
      (resumable 483).heldLines + (((resumable 483).sector 4).live + 18) = (resumable 483).freeLines) ∧
    (unitless (resumable 484) ∧ ((resumable 484).sector 4).st = .reclaiming) ∧
    (unitless (scarce 253 (some 484) 20 (entry .sealed 7 1 1 10 244)) ∧
      1 ≤ ((scarce 253 (some 484) 20 (entry .sealed 7 1 1 10 244)).sector 4).dead) := by
  refine ⟨by and_intros <;> decide +kernel, ⟨?_, by decide +kernel⟩, ?_, by decide +kernel⟩
  · exact ⟨by decide +kernel, .inl ⟨4, by and_intros <;> decide +kernel, by decide +kernel⟩⟩
  · exact ⟨by decide +kernel, .inr ⟨by decide +kernel, by decide +kernel⟩⟩

/-- R101, R99: a victim without room ends NO-SPACE and the engine stalls; R97: a sector at the endurance limit is
retired. -/
theorem test_reclaim_edges :
    after (exec .reclaim (reclaiming (scarce 253 (some 484) 20 (entry .sealed 7 1 1 10 244))))
      (fun t => (t.cu.completions.map Completion.status, t.eng.st, t.eng.stalled)) = some ([.noSpace], .idle, true) ∧
    after (exec .reclaim (reclaiming (scarce 253 none 20 (entry .erasePending 100000 0 0 0 0))))
      (fun t => (t.eng.st, t.eng.cause, t.lw.reclaimRes, t.lw.current.map InProgress.record)) =
      some (.retiring, .endurance, some 17, some (retireRecord 4 20)) := by
  decide +kernel

/-- R10, R87: the number of the RECLAIM-BEGIN is refused. -/
theorem test_reclaim_numberless :
    after (exec .reclaim (reclaiming (scarce 253 none 0xFFFFFFFF (entry .sealed 7 1 1 10 244))))
      (fun t => (t.store.st, t.store.cause, (t.sector 4).st, t.cu.completions.map Completion.status, t.lw.reclaimRes)) =
      some (.readOnly, .sequence, .sealed, [.readOnly], none) := by
  decide +kernel

/-- Two SEALED sectors with as many live lines: the older one is the victim. -/
def equalLive : State :=
  let s := withEntry (lineAt base 255) 2 (entry .sealed 7 2 9 2 252)
  { s with lw := { s.lw with seqCtr := 0xFFFFFFFE } }

theorem witness_Reclaim_passes :
    (∀ j, (equalLive.sector j).st ≠ .erasePending ∧ (equalLive.sector j).st ≠ .reclaiming) ∧ victimIn equalLive 1 ∧
    equalLive.lw.reclaimRes = none ∧ equalLive.lw.idle ∧ equalLive.lw.point = some { sector := 0, line := 255 } ∧
    equalLive.lw.seqCtr + 1 = 0xFFFFFFFF := by
  and_intros <;> decide +kernel

theorem witness_MountTaken :
    (∀ st ∈ [StoreState.unmounted, .readOnly, .powerHold],
      (withHead (withStore base st) (plain 0x50#8 0#16)).heads (plain 0x50#8 0#16) behind) ∧
    base.pins.pfailLow = false ∧ noWork base ∧ base.arr.m = none ∧
    ¬ noWork (withCommit base committing) := by
  and_intros <;> first | (refine no_code ?_; decide +kernel) | decide +kernel

theorem witness_MountTaken_busy :
    ¬ noWork (inFlight base [(0x41#8, 1#8)]) ∧ ¬ noWork (withEngine base .erasing 3) :=
  ⟨fun h => absurd rfl (h.2.1 (0x41#8, 1#8) (by decide)), fun h => absurd h.2.2 (by decide +kernel)⟩

theorem witness_FormatTaken :
    (∀ st ∈ [StoreState.unmounted, .readOnly, .mounted],
      (withHead (withStore base st) (plain 0x51#8 0#16)).heads (plain 0x51#8 0#16) behind) ∧
    (∃ i : GuardIx, (full.guards.get i).fixed = true) ∧ (¬ ∃ i : GuardIx, (base.guards.get i).fixed = true) ∧
    ¬ noWork (withCommit base committing) ∧ noWork base ∧
    65535 ≤ ({ base.store with generation := 65535 } : StoreCtl).generation ∧
    ({ base.store with generation := 65534 } : StoreCtl).generation < 65535 ∧ base.arr.m = none := by
  and_intros <;> first | (refine no_code ?_; decide +kernel) | decide +kernel

/-! #### Ends of the Log Writer's programs -/

/-- A three-line record of the commit of one operation, its line `done` in progress. -/
def writing (done failures : Nat) : State :=
  let op := put 0x0005#16 20
  let r := op.record true 0 19
  let s := performing (inFlight (withStaging (lineAt base (11 + done)) [op]) [(0x41#8, 1#8), (0x23#8, 2#8)]) .l
    (.program 0 (10 + done) (r.lineData done))
  let cur : InProgress :=
    { stream := .commit, record := r, place := some { sector := 0, line := 10 }, done := done, failures := failures }
  let f : CommitFlight :=
    { n := 1, amount := 35, phase := .writing, first := 19, txn := 0, nextIx := 1, written := [] }
  withEngine { s with lw := { s.lw with current := some cur, commitRes := some 33 }, tm := { s.tm with commit := some f } }
    .copying 2

theorem witness_LineProgramEnd :
    (performs (writing 1 0) .l (.program 0 11 (((put 0x0005#16 20).record true 0 19).lineData 1)) ∧
      (writing 1 0).writable ∧ 1 + 1 < ((put 0x0005#16 20).record true 0 19).lines ∧
      (((put 0x0005#16 20).record true 0 19).lineData 1).length = 16 ∧ (writing 1 0).flash.wf = true) ∧
    (performs (writing 2 0) .l (.program 0 12 (((put 0x0005#16 20).record true 0 19).lineData 2)) ∧
      ((put 0x0005#16 20).record true 0 19).lines ≤ 2 + 1 ∧ (writing 2 0).tm.staging = [put 0x0005#16 20] ∧
      (writing 2 0).tm.settings = none ∧ (writing 2 0).lw.opening = none ∧ (writing 2 0).lw.commitReady = none ∧
      (writing 2 0).lw.reclaimReady = none ∧ (writing 2 0).cu.flies [(0x41#8, 1#8)] 0x23#8 2#8 [] ∧
      (writing 2 0).eng.st ≠ .idle) ∧
    ((writing 0 0).candidate = some 5 ∧ (writing 0 1).candidate = some 5) := by
  and_intros <;> first | (refine no_code ?_; decide +kernel) | decide +kernel

/-- R26, R79, R80: a line before the last, or one that fails, in POWER-HOLD and in READ-ONLY. -/
theorem witness_LineProgramEnd_halted : ∀ x ∈ [(StoreState.powerHold, Status.powerFail), (.readOnly, .readOnly)],
    performs (haltedAs (writing 1 0) x.1) .l (.program 0 11 (((put 0x0005#16 20).record true 0 19).lineData 1)) ∧
    halted (haltedAs (writing 1 0) x.1) x.2 ∧ (haltedAs (writing 1 0) x.1).lw.current.isSome = true ∧
    (haltedAs (writing 1 0) x.1).tm.commit.isSome = true := by
  decide +kernel

/-- The commit's line fails with no sector BLANK: at the first failure and at the second. -/
theorem witness_LineProgramEnd_blankless : ∀ n ∈ [0, 1],
    (∀ j, ((blankless (writing 0 n)).sector j).st ≠ .blank) ∧ (blankless (writing 0 n)).writable ∧
    (blankless (writing 0 n)).lw.commitReady = none ∧ (blankless (writing 0 n)).lw.reclaimReady = none := by
  decide +kernel

/-- The lines that a commit of one operation moves: two of a SEALED sector turn dead and three of the ACTIVE one live.
-/
theorem witness_LineProgramEnd_counts :
    (givenIn (writing 2 0) [put 0x0005#16 20] 1 = 2 ∧ 2 ≤ ((writing 2 0).sector 1).live) ∧
    (takenIn [put 0x0005#16 20] [{ sector := 0, line := 10 }] 0 = 3 ∧ 3 ≤ ((writing 2 0).sector 0).dead) ∧
    (writing 2 0).entry 0x0005#16 = some (dirEntry 0x0005#16 true 1 2 2 5 3) ∧
    ((writing 2 0).sector 1).st = .sealed := by
  decide +kernel

/-- R99: a commit that gives up lines of a SEALED sector clears STALLED; one of the ACTIVE sector leaves it. -/
theorem test_commit_stalled :
    let stalled := fun s : State => { s with eng := { s.eng with stalled := true } }
    after (exec (.lineProgramEnd .passed) (stalled (writing 2 0))) (fun t => (t.eng.stalled, (t.sector 1).live)) =
      some (false, 0) ∧
    after (exec (.lineProgramEnd .passed) (stalled (withEntry (writing 2 0) 1 (entry .reclaiming 7 1 2 2 252))))
      (fun t => (t.eng.stalled, (t.sector 1).live)) = some (true, 0) := by
  decide +kernel

/-- A record of the engine in one of its four states, its line failing. -/
def refusable (st : EngineState) (failures : Nat) : State :=
  let r := if st = .beginning then reclaimBeginRecord 6 19 else if st = .ending then reclaimEndRecord 6 3 19
    else if st = .retiring then retireRecord 6 19 else copyOf (small .retire 0#16 0 13 [7#8])
  let cur : InProgress :=
    { stream := .reclaim, record := r, place := some { sector := 0, line := 9 }, done := 0, failures := failures }
  let s := performing (inFlight (withAuto base 0) [(0x23#8, 2#8), (0x41#8, 1#8)]) .l (.program 0 9 (r.lineData 0))
  { s with
    lw := { s.lw with current := some cur, reclaimRes := some 9 }
    eng := { s.eng with st := st, sector := some 6, owner := .command 1#8, cause := .eraseFault, copyCount := 3 } }

/-- The four records of the reclaim stream, refused NO-SPACE, ARRAY-FAULT with a candidate and without one, POWER-FAIL
and READ-ONLY. -/
theorem witness_LineProgramEnd_reclaim : ∀ st ∈ [EngineState.beginning, .copying, .ending, .retiring],
    (∀ n ∈ [0, 1], (refusable st n).arr.busy = some .l ∧ (refusable st n).lw.current.isSome = true ∧
      (refusable st n).eng.sector = some 6 ∧ (refusable st n).candidate = some 5 ∧
      (∀ j, ((blankless (refusable st n)).sector j).st ≠ .blank) ∧ (blankless (refusable st n)).writable) ∧
    halted (haltedAs (refusable st 0) .powerHold) .powerFail ∧ halted (haltedAs (refusable st 0) .readOnly) .readOnly ∧
    (refusable st 0).cu.flies [(0x23#8, 2#8)] 0x41#8 1#8 [] ∧
    countIn (retiredIn (refusable st 0) 6 none).sectors .retired = 1 := by
  intro st h
  rcases List.mem_cons.mp h with rfl | h
  · and_intros <;> first | (refine no_code ?_; decide +kernel) | decide +kernel
  rcases List.mem_cons.mp h with rfl | h
  · and_intros <;> first | (refine no_code ?_; decide +kernel) | decide +kernel
  rcases List.mem_cons.mp h with rfl | h
  · and_intros <;> first | (refine no_code ?_; decide +kernel) | decide +kernel
  rcases List.mem_cons.mp h with rfl | h
  · and_intros <;> first | (refine no_code ?_; decide +kernel) | decide +kernel
  · exact absurd h List.not_mem_nil

/-- The status posted, the engine after, whether an opening is in progress, and sector 6. -/
def refusedAs (s : State) : Option (List Status × EngineState × Bool × Bool × SectorState) :=
  after (exec (.lineProgramEnd .failed) s) (fun t =>
    (t.cu.completions.map Completion.status, t.eng.st, t.eng.stalled, t.lw.opening.isSome, (t.sector 6).st))

/-- R24, R90, R95, R99: the copy refused NO-SPACE sets STALLED; at a second failure the unit ends ARRAY-FAULT without
it; a RETIRE record refused so retires its sector with no location. -/
theorem test_reclaim_record_refused :
    refusedAs (blankless (refusable .copying 0)) = some ([.noSpace], .idle, true, false, .sealed) ∧
    refusedAs (blankless (refusable .beginning 0)) = some ([.noSpace], .idle, false, false, .sealed) ∧
    refusedAs (refusable .ending 1) = some ([.arrayFault], .idle, false, true, .blank) ∧
    refusedAs (blankless (refusable .retiring 0)) = some ([.arrayFault], .idle, false, false, .retired) := by
  and_intros <;> decide +kernel

/-- The rest state of a store with the engine IDLE under AUTO-RECLAIM 1: a commit that has completed there. -/
def atRest (s : State) : State := { s with eng := Engine.reset }

theorem witness_LineProgramEnd_rest :
    (atRest (writing 2 0)).writable ∧ (atRest (writing 2 0)).eng.st = .idle ∧
    (atRest (writing 2 0)).settings.autoReclaim = 1 ∧
    State.engineRests { atRest (writing 2 0) with tm := { (writing 2 0).tm with staging := [], commit := none } } := by
  and_intros <;> decide +kernel

/-- R76: in the rest state the commit completes OK with its sequence number and one record. -/
theorem test_commit_completes : after (exec (.lineProgramEnd .passed) (atRest (writing 2 0)))
    (fun t => (t.cu.completions, t.tm.staging, t.eng.st, (t.entry 0x0005#16).map DirEntry.seq)) =
    some ([flightDone 0x23#8 2#8 .ok 19 1 0], [], .idle, some 19) := by decide +kernel

/-- An opening of sector 5 in progress for the record of `writing`, the old sector at line 254. -/
def opening (early : Bool) (blanks : Bool) : State :=
  let s := lineAt (writing 0 0) 254
  let cur := s.lw.current.map (fun c => { c with place := none })
  let s1 := performing
    { s with
      lw := { s.lw with
        current := cur, actCtr := 5
        opening := some { candidate := 5, early := early, activation := 4, openingSeq := 20 } } }
    .l (.program 5 1 (openStampLine 4 20))
  if blanks then s1 else { s1 with sectors := s1.sectors.map (fun x => { x with st := if x.st = .blank ∧ x.eraseCount = 6 then .sealed else x.st }) }

theorem witness_OpenStampProgramEnd :
    performs (opening false true) .l (.program 5 1 (openStampLine 4 20)) ∧
    (opening false true).lw.opening = some { candidate := 5, early := false, activation := 4, openingSeq := 20 } ∧
    (opening true true).lw.opening = some { candidate := 5, early := true, activation := 4, openingSeq := 20 } ∧
    (opening false true).lw.current.isSome = true ∧
    (opening false true).lw.point = some { sector := 0, line := 254 } ∧ (0 : SectorIx) ≠ 5 ∧
    (opening false true).writable ∧ (openStampLine 4 20).length = 16 ∧ (opening false true).flash.wf = true ∧
    (opening false true).eng.st = .copying ∧
    bestBlankBut (opening false true) 5 3 ∧
    ((∀ j : SectorIx, j ≠ 5 → ((opening false false).sector j).st ≠ .blank) ∧
      (opening false false).cu.flies [(0x41#8, 1#8)] 0x23#8 2#8 [] ∧ (opening false false).lw.commitReady = none ∧
      (opening false false).lw.reclaimReady = none) := by
  and_intros <;> first | (refine no_code ?_; decide +kernel) | decide +kernel

/-- An opening that no record waits for, with records ready on the streams or none. -/
def openingAlone (commit reclaim : Option Record) (flag : Stream) : State :=
  let s := opening true true
  { s with lw := { s.lw with current := none, commitReady := commit, reclaimReady := reclaim, flag := flag } }

/-- The opening of a waiting record in POWER-HOLD and READ-ONLY; an opening alone with no record ready, with one, and
with both on either turn. -/
theorem witness_OpenStampProgramEnd_others :
    (∀ x ∈ [(StoreState.powerHold, Status.powerFail), (.readOnly, .readOnly)], halted (haltedAs (opening false true) x.1) x.2 ∧
      (haltedAs (opening false true) x.1).lw.current.isSome = true ∧
      performs (haltedAs (opening false true) x.1) .l (.program 5 1 (openStampLine 4 20)) ∧
      halted (haltedAs (openingAlone none none .commit) x.1) x.2) ∧
    (∀ f ∈ [Stream.commit, .reclaim],
      (openingAlone (some (commitRecord 2 9 20)) (some (retireRecord 6 19)) f).writable ∧
      (openingAlone none none f).lw.current = none ∧
      (openingAlone (some (commitRecord 2 9 20)) none f).lw.commitReady = some (commitRecord 2 9 20) ∧
      (openingAlone none (some (retireRecord 6 19)) f).lw.reclaimReady = some (retireRecord 6 19)) ∧
    (∀ j : SectorIx, j ≠ 5 → ((blankless (openingAlone none none .commit)).sector j).st ≠ .blank) ∧
    ((commitRecord 2 9 20).lines ≤ 254 ∧ (retireRecord 6 19).lines ≤ 254) := by
  decide +kernel

/-- Sector 5, the append point, the stream served and whether a record of the reclaim stream is left ready. -/
def openedAs (s : State) : Option (SectorState × Option Nat × Option Stream × Bool) :=
  after (exec (.openStampProgramEnd .passed) s) (fun t =>
    ((t.sector 5).st, t.lw.point.map AppendPoint.line, t.lw.current.map InProgress.stream, t.lw.reclaimReady.isSome))

/-- R18, R25: after the early opening that nothing waits for, the record whose turn it is takes lines 2 on. -/
theorem test_opening_alone :
    openedAs (openingAlone none none .commit) = some (.active, some 2, none, false) ∧
    openedAs (openingAlone (some (commitRecord 2 9 20)) (some (retireRecord 6 19)) .commit) =
      some (.active, some 3, some .commit, true) ∧
    openedAs (openingAlone (some (commitRecord 2 9 20)) (some (retireRecord 6 19)) .reclaim) =
      some (.active, some 3, some .reclaim, false) := by
  and_intros <;> decide +kernel

/-! #### The engine's operations -/

/-- A walk of sector 1 with its READ of a line in progress. -/
def walking (p attempts : Nat) : State :=
  let s := performing (withEngine (lineAt base 254) .copying 1) .c (.readRecord 1 p .header)
  { s with eng := { s.eng with
    cursor := p, attempts := attempts, firstRef := some (.entry 0x0005#16 3 2), copyCount := 1, copiedLines := 3 } }

/-- The walk with another reference kept at its first failed read. -/
def recalling (p : Nat) (ref : Option LineRef) : State :=
  let s := walking p 1
  { withEntry s 7 { entry .retired 100000 0 0 0 0 with retireLoc := some { sector := 1, line := p } } with
    eng := { s.eng with firstRef := ref } }

/-- What a READ of the walk returns from a state at a line. -/
def walked (s : State) (p : Nat) (r : ReadOutcome) : ReadResult := (s.readRecord 1 p .header r).1

theorem witness_ReclaimReadEnd :
    walkReads (walking 254 0) .stored 1 254 (walked (walking 254 0) 254 .stored) 0 ∧
    (isBlankLine (walked (walking 254 0) 254 .stored).bytes = true ∧
      (walking 254 0).entryAt { sector := 1, line := 254 } = none ∧
      (walking 254 0).retiredAt { sector := 1, line := 254 } = none) ∧
    (isBlankLine (walked (walking 255 0) 255 .stored).bytes = true ∧
      (walking 255 0).entryAt { sector := 1, line := 255 } = none ∧
      (walking 255 0).retiredAt { sector := 1, line := 255 } = none ∧
      (walking 255 0).lw.idle ∧ (walking 255 0).lw.point = some { sector := 0, line := 254 } ∧ 2 = 256 - 254 ∧
      (walking 255 0).lw.seqCtr + 1 ≤ 0xFFFFFFFF) := by
  refine ⟨⟨rfl, rfl, rfl, .header, ?_⟩, ?_⟩ <;> and_intros <;> decide +kernel

/-- The walk of sector 1 in a directory where line 4 holds the tombstone of 0007h, with sector 8 retired without a
location and sector 7 with its RETIRE record on line 8. -/
def walkingOn (p : Nat) (v : SectorState) : State :=
  let s := withEntry (withEntry (recalling 8 none) 8 (entry .retired 100000 0 0 0 0)) 1
    { entry v 7 1 2 4 250 with activation := if v = .reclaiming then 1 else 9 }
  { performing s .c (.readRecord 1 p .header) with
    dir := dir ++ [dirEntry 0x0017#16 false 1 4 1 0 12]
    eng := { s.eng with cursor := p, attempts := 0 } }

/-- R100: the walk's READ ends in POWER-HOLD and in READ-ONLY: on a blank line, at a record, and at a first failure. -/
theorem witness_ReclaimReadEnd_halted : ∀ x ∈ [(StoreState.powerHold, Status.powerFail), (.readOnly, .readOnly)],
    (halted (haltedAs (walking 254 0) x.1) x.2 ∧ halted (haltedAs (walkingOn 2 .sealed) x.1) x.2) ∧
    isBlankLine (walked (haltedAs (walking 254 0) x.1) 254 .stored).bytes = true ∧
    (validRecordAt 2 (walked (haltedAs (walkingOn 2 .sealed) x.1) 2 (.altered value.bytes)) = some value ∧
      isBlankLine (walked (haltedAs (walkingOn 2 .sealed) x.1) 2 (.altered value.bytes)).bytes = false ∧
      ¬ dropped (haltedAs (walkingOn 2 .sealed) x.1) { sector := 1, line := 2 } value) ∧
    ((haltedAs (walking 2 0) x.1).eng.attempts = 0 ∧
      validRecordAt 2 (walked (haltedAs (walking 2 0) x.1) 2 (.altered [0#8])) = none) := by
  decide +kernel

/-- The walk's end with no number left for its RECLAIM-END. -/
def walkedOut : State :=
  { walking 255 0 with lw := { (walking 255 0).lw with seqCtr := 0xFFFFFFFF } }

theorem witness_ReclaimReadEnd_numberless :
    walkReads walkedOut .stored 1 255 (walked walkedOut 255 .stored) 0 ∧ refusesNothing walkedOut ∧
    walkedOut.spaceWaiter = false ∧ walkedOut.eng.owner = .automatic ∧ (walkedOut.sector 1).st ≠ .blank := by
  refine ⟨⟨rfl, rfl, rfl, .header, ?_⟩, ?_⟩ <;> and_intros <;> decide +kernel

theorem witness_ReclaimReadEnd_fails :
    (validRecordAt 255 (walked (walking 255 0) 255 (.altered [0#8])) = none ∧
      isBlankLine (walked (walking 255 0) 255 (.altered [0#8])).bytes = false) ∧
    (validRecordAt 2 (walked (walking 2 1) 2 .stored) = none ∧
      (walking 2 1).entryAt { sector := 1, line := 2 } ≠ none ∧ (walking 2 1).eng.attempts ≠ 0 ∧
      (walking 2 1).eng.firstRef = some (.entry 0x0005#16 3 2) ∧
      (walking 2 1).entry 0x0005#16 = some (dirEntry 0x0005#16 true 1 2 2 5 3) ∧
      2 ≤ ((walking 2 1).sector 1).live) ∧
    ((recalling 8 (some (.entry 0x0005#16 2 2))).eng.firstRef = some (.entry 0x0005#16 2 2) ∧
      (∀ d ∈ (recalling 8 none).dir, d.seq ≠ 2) ∧ validRecordAt 8 (walked (recalling 8 none) 8 .stored) = none ∧
      (recalling 8 none).retiredAt { sector := 1, line := 8 } = some 7) ∧
    (((recalling 8 none).sector 7).retireLoc = some { sector := 1, line := 8 } ∧
      ((recalling 8 none).sector 6).retireLoc ≠ some { sector := 1, line := 8 } ∧
      1 ≤ ((recalling 8 none).sector 1).live ∧ (7 : SectorIx) ≠ 1 ∧ (recalling 8 none).eng.firstRef = none) := by
  and_intros <;> decide +kernel

theorem witness_WalkRecords_copies :
    walkReads (walkingOn 2 .sealed) (.altered value.bytes) 1 2 (walked (walkingOn 2 .sealed) 2 (.altered value.bytes)) 0 ∧
    ((walkingOn 2 .sealed).lw.idle ∧ (walkingOn 2 .sealed).lw.point = some { sector := 0, line := 254 } ∧
      value.lines = 256 - 254 ∧ (walkingOn 2 .sealed).lw.stopped = false ∧ (walkingOn 2 .sealed).pins.pfailLow = false) ∧
    copied (walkingOn 2 .sealed) { sector := 1, line := 2 } value ∧
    copied (walkingOn 4 .sealed) { sector := 1, line := 4 } (small .tombstone 0x0017#16 0 12 []) ∧
    copied (walkingOn 8 .sealed) { sector := 1, line := 8 } (small .retire 0#16 0 13 [7#8]) ∧
    copied (walkingOn 9 .sealed) { sector := 1, line := 9 } (small .commit 0#16 4 18 [2#8]) ∧
    copied (walkingOn 9 .sealed) { sector := 1, line := 9 } (small .reclaimEnd 0#16 0 13 [8#8, 0#8, 1#8]) ∧
    validRecordAt 9 (walked (walkingOn 9 .sealed) 9 (.altered (small .commit 0#16 4 18 [2#8]).bytes)) =
      some (small .commit 0#16 4 18 [2#8]) := by
  refine ⟨⟨rfl, rfl, rfl, .header, ?_⟩, ?_⟩ <;> and_intros <;> decide +kernel

theorem witness_WalkRecords_drops :
    dropped (walkingOn 4 .reclaiming) { sector := 1, line := 4 } (small .tombstone 0x0017#16 0 12 []) ∧
    (walkingOn 4 .reclaiming).entryAt { sector := 1, line := 4 } = some (dirEntry 0x0017#16 false 1 4 1 0 12) ∧
    (walkingOn 4 .reclaiming).entry 0x0017#16 = some (dirEntry 0x0017#16 false 1 4 1 0 12) ∧
    1 ≤ ((walkingOn 4 .reclaiming).sector 1).live ∧
    (¬ copied (walkingOn 253 .sealed) { sector := 1, line := 253 } value ∧
      ¬ dropped (walkingOn 253 .sealed) { sector := 1, line := 253 } value ∧ 253 + value.lines < 256) := by
  and_intros <;> decide +kernel

/-- The last line of a record in progress at a place of the ACTIVE sector. -/
def lastOf (s : State) (stream : Stream) (r : Record) (line : Nat) : State :=
  let cur : InProgress :=
    { stream := stream, record := r, place := some { sector := 0, line := line }, done := r.lines - 1, failures := 0 }
  performing { s with lw := { s.lw with current := some cur, commitRes := some 9, reclaimRes := some 9 } } .l
    (.program 0 (line + (r.lines - 1)) (r.lineData (r.lines - 1)))

def curOf (s : State) : Option InProgress := s.lw.current

/-- A commit of two operations: `k` records written, the next in progress on line 9. -/
def committed (k : Nat) (r : Record) : State :=
  lastOf (inFlight (withEngine (withCommit (withStaging (lineAt base 10) [put 0x0011#16 5, del 0x0010#16]) (offering k))
    .copying 2) [(0x41#8, 1#8), (0x23#8, 2#8)]) .commit r 9

theorem witness_CommitStreamWritten :
    ((curOf (committed 0 ((put 0x0011#16 5).record false 65534 18))).any (fun c =>
      decide (lastLine (committed 0 ((put 0x0011#16 5).record false 65534 18)) 0 10
        (((put 0x0011#16 5).record false 65534 18).lineData 1) c { sector := 0, line := 9 } ∧ c.stream = .commit)) =
      true ∧ (offering 0).written.length + 1 < 2 + 1) ∧
    ((curOf (committed 2 (commitRecord 2 65534 20))).any (fun c =>
      decide (lastLine (committed 2 (commitRecord 2 65534 20)) 0 9 ((commitRecord 2 65534 20).lineData 0) c
        { sector := 0, line := 9 } ∧ c.stream = .commit)) = true ∧
      (offering 2).n = (committed 2 (commitRecord 2 65534 20)).tm.staging.length ∧ (offering 2).written.length = 2 ∧
      ((committed 2 (commitRecord 2 65534 20)).tm.staging.map Staged.key).Nodup ∧
      (committed 2 (commitRecord 2 65534 20)).cu.flies [(0x41#8, 1#8)] 0x23#8 2#8 [] ∧
      (committed 2 (commitRecord 2 65534 20)).eng.st ≠ .idle) := by
  and_intros <;> first | (refine no_code ?_; decide +kernel) | decide +kernel

/-- The lines a commit of two operations moves, and the SEALED sector that its first one leaves. -/
theorem witness_CommitStreamWritten_counts :
    let s := committed 2 (commitRecord 2 65534 20)
    (∀ j, givenIn s s.tm.staging j ≤ (s.sector j).live ∧ takenIn s.tm.staging (offering 2).written j ≤ (s.sector j).dead) ∧
    givenIn s s.tm.staging 0 = 2 ∧ takenIn s.tm.staging (offering 2).written 0 = 3 ∧
    (givenIn s [del 0x0005#16] 1 = 2 ∧ (s.sector 1).st = .sealed) := by
  decide +kernel

/-- R54, R76: after the COMMIT record the three lines taken are live, the two given up dead. -/
theorem test_commit_stream_counts :
    after (exec (.lineProgramEnd .passed) (committed 2 (commitRecord 2 65534 20)))
      (fun t => ((t.sector 0).live, (t.sector 0).dead)) = some (4, 4) := by
  decide +kernel

/-- A settings write, its record's last line in progress. -/
def saving : State :=
  let f : SettingsFlight := { phase := .writing, payload := settingsPayload base.settings base.guards, seq := 19 }
  let s := inFlight (withEngine base .copying 2) [(0x31#8, 2#8)]
  lastOf { s with tm := { s.tm with settings := some f }, dir := s.dir ++ [dirEntry 0xFF01#16 true 1 20 2 52 1] } .commit
    (settingsRecord f.payload 19) 5

/-- R24, R79, R82: the settings record's line fails with no sector BLANK, and in POWER-HOLD. -/
theorem witness_LineProgramEnd_saving :
    performs (blankless saving) .l (.program 0 9
      ((settingsRecord (settingsPayload base.settings base.guards) 19).lineData 4)) ∧
    (∀ j, ((blankless saving).sector j).st ≠ .blank) ∧ (blankless saving).writable ∧
    (blankless saving).tm.commit = none ∧ (blankless saving).cu.flies [] 0x31#8 2#8 [] ∧
    halted (haltedAs saving .powerHold) .powerFail := by
  and_intros <;> first | (refine no_code ?_; decide +kernel) | decide +kernel

theorem witness_CommitStreamWritten_rest :
    State.engineRests { atRest (committed 2 (commitRecord 2 65534 20)) with
      tm := { (committed 2 (commitRecord 2 65534 20)).tm with staging := [], commit := none } } ∧
    State.engineRests { atRest saving with tm := { saving.tm with settings := none } } ∧
    (atRest saving).settings.autoReclaim = 1 ∧ (atRest saving).eng.st = .idle := by
  and_intros <;> decide +kernel

theorem witness_CommitStreamWritten_settings :
    (curOf saving).any (fun c =>
      decide (lastLine saving 0 9 ((settingsRecord (settingsPayload base.settings base.guards) 19).lineData 4) c
        { sector := 0, line := 5 } ∧ c.stream = .commit)) = true ∧ saving.tm.commit = none ∧
    (settingsPayload base.settings base.guards).length = 52 ∧ saving.cu.flies [] 0x31#8 2#8 [] ∧
    saving.entry 0xFF01#16 = some (dirEntry 0xFF01#16 true 1 20 2 52 1) ∧ saving.eng.st ≠ .idle ∧
    ((1 : SectorIx) ≠ 0 ∧ 2 ≤ (saving.sector 1).live ∧ 5 ≤ (saving.sector 0).dead) := by
  and_intros <;> first | (refine no_code ?_; decide +kernel) | decide +kernel

/-- The copy of a record of the walk, its last line in progress on line 9. -/
def copying (r : Record) (p : Nat) : State :=
  lastOf (walkingOn p .reclaiming) .reclaim (copyOf r) (10 - r.lines)

theorem witness_CopyWritten :
    ((curOf (copying value 2)).any (fun c =>
      decide (lastLine (copying value 2) 0 9 ((copyOf value).lineData 1) c { sector := 0, line := 8 } ∧
        c.stream = .reclaim ∧ 2 + c.record.lines < 256)) = true ∧
      (copying value 2).store.st = .mounted ∧ (copying value 2).eng.st = .copying ∧
      (copying value 2).eng.sector = some 1 ∧ (copying value 2).eng.cursor = 2 ∧
      (copying value 2).entry 0x0005#16 = some (dirEntry 0x0005#16 true 1 2 2 5 3) ∧
      ((1 : SectorIx) ≠ 0 ∧ 2 ≤ ((copying value 2).sector 1).live ∧ 2 ≤ ((copying value 2).sector 0).dead)) ∧
    ((copying value 2).entry 0x0016#16 = none) ∧
    ((copying value 2).entry 0x0017#16 = some (dirEntry 0x0017#16 false 1 4 1 0 12) ∧ 11 < 12 ∧
      earlier (copying value 2) 1 0) ∧
    (((copying value 8).sector 7).st = .retired ∧
      ((copying value 8).sector 7).retireLoc = some { sector := 1, line := 8 } ∧
      (∀ i : SectorIx, ((copying value 8).sector i).st = .retired →
        ((copying value 8).sector i).retireLoc = some { sector := 1, line := 8 } → i = 7) ∧
      1 ≤ ((copying value 8).sector 0).dead ∧ 1 ≤ ((copying value 8).sector 1).live) := by
  and_intros <;> decide +kernel

/-- R100: the copy of a VALUE is written in POWER-HOLD and in READ-ONLY. -/
theorem witness_CopyWritten_halted : ∀ x ∈ [(StoreState.powerHold, Status.powerFail), (.readOnly, .readOnly)],
    halted (haltedAs (copying value 2) x.1) x.2 ∧ (haltedAs (copying value 2) x.1).eng.owner = .automatic ∧
    (curOf (haltedAs (copying value 2) x.1)).any (fun c =>
      decide (lastLine (haltedAs (copying value 2) x.1) 0 9 ((copyOf value).lineData 1) c { sector := 0, line := 8 })) =
      true := by
  decide +kernel

/-- A marker record of the engine, its last line in progress; its unit works on sector 6. -/
def marking (st : EngineState) (cause : RetireCause) (count : Nat) (retired : Nat) (r : Record) : State :=
  let s := lastOf (inFlight (withAuto base 0) [(0x23#8, 2#8), (0x41#8, 1#8)]) .reclaim r (10 - r.lines)
  { s with
    sectors := Vector.ofFn (fun i : SectorIx =>
      if i = 0 then entry .active 9 3 15 3 5
      else if i = 6 then entry (if st = .ending then .reclaiming else if st = .beginning then .sealed else .erasePending) count 1 1 0 0
      else if i.val ≤ retired then entry .retired 100000 0 0 0 0
      else entry .blank 1 0 0 0 0)
    eng := { s.eng with
      st := st, sector := some 6, owner := .command 1#8, cause := cause, copyCount := 3, copiedLines := 9
      stalled := true } }

theorem witness_MarkerWritten :
    (∀ m ∈ [(EngineState.beginning, reclaimBeginRecord 6 19), (.ending, reclaimEndRecord 6 3 19),
        (.retiring, retireRecord 6 19)],
      (curOf (marking m.1 .endurance 99999 29 m.2)).any (fun c =>
        decide (lastLine (marking m.1 .endurance 99999 29 m.2) 0 9 (m.2.lineData (m.2.lines - 1)) c
          { sector := 0, line := 10 - m.2.lines } ∧ c.stream = .reclaim)) = true ∧
      (marking m.1 .endurance 99999 29 m.2).store.st = .mounted ∧
      (marking m.1 .endurance 99999 29 m.2).eng.sector = some 6 ∧ (marking m.1 .endurance 99999 29 m.2).eng.st = m.1) ∧
    (((marking .ending .endurance 99999 29 (reclaimEndRecord 6 3 19)).sector 6).eraseCount < 100000 ∧
      100000 ≤ ((marking .ending .endurance 100000 29 (reclaimEndRecord 6 3 19)).sector 6).eraseCount ∧
      (marking .ending .endurance 100000 29 (reclaimEndRecord 6 3 19)).lw.stopped = false) ∧
    ((6 : SectorIx) ≠ 0 ∧ 1 ≤ ((marking .retiring .eraseFault 1 29 (retireRecord 6 19)).sector 0).dead ∧
      countIn ((marking .retiring .eraseFault 1 29 (retireRecord 6 19)).sectors.set 6 (entry .retired 1 0 0 0 0)) .retired
        = 29 ∧
      (withAuto (marking .retiring .eraseFault 1 29 (retireRecord 6 19)) 1).settings.autoReclaim = 1 ∧
      (marking .retiring .eraseFault 1 29 (retireRecord 6 19)).spaceWaiter = false ∧
      (marking .retiring .eraseFault 1 29 (retireRecord 6 19)).cu.flies [(0x23#8, 2#8)] 0x41#8 1#8 []) ∧
    (countIn ((marking .retiring .endurance 1 30 (retireRecord 6 19)).sectors.set 6 (entry .retired 1 0 0 0 0)) .retired
        = 30 ∧ noWrite (marking .retiring .endurance 1 30 (retireRecord 6 19)) ∧
      (marking .retiring .endurance 1 30 (retireRecord 6 19)).arr.waitingWrite .c = false ∧
      (marking .retiring .endurance 1 30 (retireRecord 6 19)).arr.waitingWrite .m = false) := by
  and_intros <;> first | (refine no_code ?_; decide +kernel) | decide +kernel

/-- R100: the three marker records written in POWER-HOLD and in READ-ONLY. -/
theorem witness_MarkerWritten_halted :
    ∀ x ∈ [(StoreState.powerHold, Status.powerFail), (.readOnly, .readOnly)],
      ∀ m ∈ [(EngineState.beginning, reclaimBeginRecord 6 19), (.ending, reclaimEndRecord 6 3 19),
        (.retiring, retireRecord 6 19)],
      halted (haltedAs (marking m.1 .endurance 99999 29 m.2) x.1) x.2 ∧
      (curOf (haltedAs (marking m.1 .endurance 99999 29 m.2) x.1)).any (fun c =>
        decide (lastLine (haltedAs (marking m.1 .endurance 99999 29 m.2) x.1) 0 9 (m.2.lineData (m.2.lines - 1)) c
          { sector := 0, line := 10 - m.2.lines })) = true := by
  decide +kernel

/-- R92, R100: a RECLAIM-END written in POWER-HOLD leaves its sector ERASE-PENDING and ends the unit POWER-FAIL. -/
theorem test_marker_halted :
    after (exec (.lineProgramEnd .passed)
        (haltedAs (marking .ending .endurance 99999 29 (reclaimEndRecord 6 3 19)) .powerHold))
      (fun t => ((t.sector 6).st, t.eng.st, t.cu.completions.map Completion.status, t.arr.c)) =
      some (.erasePending, .idle, [.powerFail], none) := by
  decide +kernel

/-- The erase of sector 4 in progress, or its stamp program, for the RECLAIM of tag 1. -/
def erasing (cond : EraseCond) : State :=
  let s := withEntry (lineAt base 255) 4 (entry .erasing 6 0 0 0 0)
  let s1 := withErase (performing (withEngine s .erasing 4) .c (.erase 4)) .c cond
  { s1 with
    flash := { s1.flash with cells := [(16384, 0x12#8), (16385, 0x34#8)], written := [1024] }
    lw := { s1.lw with seqCtr := 0xFFFFFFFE } }

theorem witness_EraseEndsAndSuspends :
    (performs (erasing .running) .c (.erase 4) ∧
      (erasing .running).arr.erase = some { slot := .c, cond := .running, time := 9, suspensions := 2, limit := 24 } ∧
      (erasing .running).writable) ∧
    ((erasing .running).lw.reclaimRes = none ∧ (erasing .running).heldLines + 18 ≤ (erasing .running).freeLines ∧
      (erasing .running).lw.idle ∧ (erasing .running).lw.point = some { sector := 0, line := 255 } ∧
      (erasing .running).lw.seqCtr + 1 = 0xFFFFFFFF) ∧
    (erasing .suspending).arr.erase =
      some { slot := .c, cond := .suspending, time := 9, suspensions := 2, limit := 24 } := by
  and_intros <;> decide +kernel

/-- R94, R100: the erase ends in READ-ONLY. -/
theorem witness_EraseEndsAndSuspends_readOnly :
    (haltedAs (erasing .running) .readOnly).store.st = .readOnly ∧
    (haltedAs (erasing .running) .readOnly).pins.pfailLow = false ∧
    (haltedAs (erasing .running) .readOnly).lw.stopped = false ∧
    (haltedAs (erasing .running) .readOnly).eng.sector = some 4 ∧
    (haltedAs (erasing .running) .readOnly).eng.owner = .automatic ∧
    (haltedAs (erasing .running) .readOnly).lw.seqCtr + 1 ≤ 0xFFFFFFFF ∧
    performs (haltedAs (erasing .running) .readOnly) .c (.erase 4) := by
  decide +kernel

/-- R93, R94, R95: passed, the sector is ERASE-PENDING with the raised count; failed, it is RETIRED without a
location. -/
theorem test_erase_readOnly :
    after (exec (.eraseEnd .passed) (haltedAs (erasing .running) .readOnly))
      (fun t => ((t.sector 4).st, (t.sector 4).eraseCount, t.eng.lastResult.map UnitResult.status)) =
      some (.erasePending, 7, some .readOnly) ∧
    after (exec (.eraseEnd .failed) (haltedAs (erasing .running) .readOnly))
      (fun t => ((t.sector 4).st, (t.sector 4).retireLoc, t.eng.lastResult.map UnitResult.status)) =
      some (.retired, none, some .readOnly) := by
  decide +kernel

def stamping (owner : Owner) : State :=
  let s := withAuto (withEntry base 4 (entry .erasing 7 0 0 0 0)) 0
  let s1 := performing (withEngine s .stamping 4) .c (.program 4 0 (eraseStampLine 2 7))
  { inFlight s1 [(0x23#8, 2#8), (0x41#8, 1#8)] with
    eng := { s1.eng with owner := owner, copyCount := 3, copiedLines := 9, stalled := true, cause := .endurance }
    lw := { s1.lw with reclaimRes := some 9 } }

theorem witness_EraseStampProgramEnd :
    (∀ o ∈ [Owner.automatic, .command 1#8],
      performs (stamping o) .c (.program 4 0 (eraseStampLine 2 7)) ∧ (stamping o).eng.st = .stamping ∧
        (stamping o).eng.sector = some 4 ∧ (stamping o).store.st = .mounted ∧
        (stamping o).spaceWaiter = false ∧ (stamping o).eng.owner = o ∧
        (withAuto (stamping o) 1).engineRests ∧ (stamping o).blankCount + 1 ≥ (stamping o).settings.threshold) ∧
    (stamping (.command 1#8)).cu.flies [(0x23#8, 2#8)] 0x41#8 1#8 [] ∧
    (eraseStampLine 2 7).length = 16 ∧ (stamping .automatic).flash.wf = true := by
  and_intros <;> first | (refine no_code ?_; decide +kernel) | decide +kernel

/-- The end of a unit that leaves one BLANK sector, with a commit that still finds no room. -/
def lingering (live : Nat) : State :=
  let s := scarce 253 none 20 (entry .sealed 7 1 1 live (254 - live))
  let s1 := withEntry (withEntry (withWaiter s) 5 (entry .sealed 7 2 9 254 0)) 6 (entry .erasing 7 0 0 0 0)
  performing (withEngine s1 .stamping 6) .c (.program 6 0 (eraseStampLine 2 7))

theorem witness_EraseStampProgramEnd_waits : ∀ live ∈ [10, 254],
    performs (lingering live) .c (.program 6 0 (eraseStampLine 2 7)) ∧ (lingering live).eng.st = .stamping ∧
    (lingering live).eng.owner = .automatic ∧ (lingering live).tm.commit = some waitingCommit ∧
    (lingering live).tm.settings = none ∧ (lingering live).settings.autoReclaim = 1 ∧
    (lingering live).lw.commitRes = none ∧ (∀ j, ((lingering live).sector j).mark = false) ∧
    (lingering live).freeLines + 254 < (lingering live).heldLines + 35 + 272 := by
  decide +kernel

/-- The end of a unit that leaves room for the commit, or the settings write, that waits. -/
def roomAtEnd (s : State) : State :=
  performing (withEngine (withEntry s 6 (entry .erasing 7 0 0 0 0)) .stamping 6) .c (.program 6 0 (eraseStampLine 2 7))

/-- The unit's end frees the lines the request needs: before it there is one BLANK sector, after it two. -/
theorem witness_EraseStampProgramEnd_grants :
    let c := roomAtEnd (withWaiter (scarce 253 none 20 (entry .sealed 7 1 1 254 0)))
    let w := roomAtEnd (withSaver (scarce 253 none 20 (entry .sealed 7 1 1 254 0)))
    (performs c .c (.program 6 0 (eraseStampLine 2 7)) ∧ c.eng.st = .stamping ∧ c.eng.sector = some 6 ∧
      c.eng.owner = .automatic ∧ c.store.st = .mounted ∧ c.spaceWaiter = true ∧ w.spaceWaiter = true) ∧
    (c.freeLines < c.heldLines + 35 + 272 ∧ c.heldLines + 37 + 272 ≤ c.freeLines + 254) ∧
    (∀ x ∈ [StoreState.powerHold, .readOnly], (haltedAs c x).store.st ≠ .mounted ∧ (haltedAs c x).eng.st = .stamping) := by
  decide +kernel

/-! #### Mount and format -/

/-- An operation of slot M in progress for the mount or the format. -/
def storeBusy (s : State) (st : StoreState) (purpose : MPurpose) (op : ArrayOp) : State :=
  let s1 := performing (withStore s st) .m op
  { s1 with store := { s1.store with req := some { purpose := purpose, abandoned := false } } }

def mountStamps (i : SectorIx) : State :=
  let s := inFlight (storeBusy base .mounting (.mountStamp i) (.readLines i 0 2)) [(0x50#8, 1#8)]
  { s with store := { s.store with
    mount := some (.command 1#8), scan := { MountScan.empty with
      stamps := List.replicate i.val { erase := none, opening := .blank } } } }

theorem witness_MountReadEnds_stamps :
    (performs (mountStamps 30) .m (.readLines 30 0 2) ∧ (mountStamps 30).store.st = .mounting ∧
      (mountStamps 30).store.req = some { purpose := .mountStamp 30, abandoned := false } ∧
      (31 : SectorIx).val = (30 : SectorIx).val + 1) ∧
    (performs (mountStamps 31) .m (.readLines 31 0 2) ∧ (∀ x ∈ (mountStamps 31).store.scan.stamps, x.erase = none) ∧
      validEraseStamp ((returned .stored ((mountStamps 31).readSpan (lineNo 31 0) 2).1).take 16) = none ∧
      (mountStamps 31).store.mount = some (.command 1#8) ∧ (mountStamps 31).cu.flies [] 0x50#8 1#8 []) := by
  and_intros <;> first | (refine no_code ?_; decide +kernel) | decide +kernel

/-- Stamps of generation 2: sector 0 and 1 opened, 1 before 0, sector 4 without a valid erase stamp, the rest BLANK. -/
def stampsRead : List StampRead :=
  (List.range 31).map (fun i =>
    if i = 0 then { erase := some (2, 9), opening := .valid 3 15 }
    else if i = 1 then { erase := some (2, 7), opening := .valid 1 2 }
    else if i = 4 then { erase := none, opening := .blank }
    else { erase := some (2, 6), opening := .blank })

/-- The READ of the last stamps in progress, of an erase stamp of count 100000 and a blank line 1. -/
def lastStamps : State :=
  let s := mountStamps 31
  { s with store := { s.store with scan := { s.store.scan with stamps := stampsRead } } }

def allStamps : List StampRead := stampsRead ++ [{ erase := some (2, 100000), opening := .blank }]

def stampedSectors : Vector SectorEntry 32 :=
  Vector.ofFn (fun i : SectorIx => stampedEntry 2 100000 (allStamps.getD i.val { erase := none, opening := .invalid }))

/-- The state in which RECORDS begins. -/
def stampsDone : State :=
  let gone := storeOver (readOver lastStamps 0 .m)
  { gone with
    sectors := stampedSectors
    win := lastStamps.win.raised .mountRepaired
    store := { gone.store with
      generation := 2, phase := .records
      scan := { lastStamps.store.scan with stamps := allStamps, toScan := [1, 0], cursor := 2, attempts := 0, repair := true } } }

theorem witness_MountReadEnds_classes :
    (returned (.altered (eraseStampLine 2 100000)) (lastStamps.readSpan (lineNo 31 0) 2).1 =
      eraseStampLine 2 100000 ++ List.replicate 16 0xFF#8 ∧ (lastStamps.readSpan (lineNo 31 0) 2).2.freeCount = 0) ∧
    allStamps = stampsRead ++ [{ erase := validEraseStamp (eraseStampLine 2 100000)
                                 opening := judgeOpenStamp (List.replicate 16 0xFF#8) }] ∧
    (allStamps.length = 32 ∧ (∃ x ∈ allStamps, x.erase.map Prod.fst = some 2) ∧
      (∃ x ∈ allStamps, x.erase.map Prod.snd = some 100000) ∧
      allStamps.all (fun x => x.erase.all (fun y => decide (y.1 ≤ 2 ∧ y.2 ≤ 100000))) = true) ∧
    (∀ k : SectorIx, some (stampedSectors.get k) = allStamps[k.val]?.map (stampedEntry 2 100000)) ∧
    ((∃ x ∈ allStamps, x.erase = none) ∧
      ∃ x ∈ allStamps, (stampedEntry 2 100000 x).st = .erasePending ∧ opens 2 x = false) ∧
    ([1, 0].Pairwise (fun a b => earlier stampsDone a b) ∧ ∀ k, k ∈ [1, 0] ↔ openedIn stampsDone k) := by
  and_intros <;> decide +kernel

/-- R123: sector 0 and 1 are opened, sector 4 takes the highest erase count and raises MOUNT-REPAIRED, and sector 1,
of the lower activation number, is read first. -/
theorem test_stamps_end : after (exec (.mountStampReadEnd (.altered (eraseStampLine 2 100000))) lastStamps)
    (fun t => ((t.sector 0).activation, (t.sector 4).eraseCount, (t.sector 5).st, t.indicated .mountRepaired,
      t.arr.m.map Request.op)) =
    some (3, 100000, .blank, true, some (.readRecord 1 2 .header)) := by decide +kernel

def scanRec (kind : RecKind) (solo : Bool) (key : Key) (txn seq line operand : Nat) (sec : SectorIx) : ScanRec :=
  { kind := kind, solo := solo, relocated := false, key := key, length := 0, lines := 1, txn := txn, seq := seq
    loc := { sector := sec, line := line }, operand := operand, copies := 0 }

/-- A log of two opened sectors: in sector 1 a value and an orphan; in sector 0 its tombstone, a record with its
COMMIT, a RETIRE of the pending sector 4, a RECLAIM-BEGIN of sector 1 and the settings record, which turns
AUTO-RECLAIM off. -/
def log : List ScanRec :=
  [scanRec .value true 0x0005#16 0 3 2 0 1, scanRec .value false 0x0006#16 9 4 3 0 1,
   scanRec .tombstone true 0x0005#16 0 16 2 0 0, scanRec .value false 0x0007#16 7 17 3 0 0,
   scanRec .commit true 0#16 7 18 4 1 0, scanRec .retire true 0#16 0 19 5 4 0,
   scanRec .reclaimBegin true 0#16 0 20 6 1 0, scanRec .value true 0xFF01#16 0 21 7 0 0]

def savedPayload : List Byte :=
  settingsPayload { threshold := 3, autoReclaim := 0, suspendLimit := 24 } base.guards

/-- The last READ of RECORDS in progress; at its end the scan is complete. -/
def lastRecord : State :=
  let s := performing { stampsDone with arr := Sequencer.reset } .m (.readRecord 0 255 .header)
  { s with store := { s.store with
    req := some { purpose := .mountRecord, abandoned := false }
    scan := { s.store.scan with
      toScan := [0], cursor := 255, recs := log, appendAt := [(0, 9), (1, 4)]
      settings := [{ loc := { sector := 0, line := 7 }, seq := 21, payload := savedPayload }] } } }

def scanComplete : State :=
  let gone := storeOver (readOver lastRecord 0 .m)
  { gone with store := { gone.store with
    scan := { lastRecord.store.scan with toScan := [], cursor := 2, attempts := 0 } } }

def builtDir : List DirEntry :=
  [{ dirEntry 0x0005#16 false 0 2 1 0 16 with length := 0 }, dirEntry 0x0007#16 true 0 3 1 0 17,
   dirEntry 0xFF01#16 true 0 7 1 0 21]

def builtLog : MountBuild :=
  { found := builtDir, dir := builtDir
    sectors := ((stampedSectors.set 0
        { stampedSectors.get 0 with st := .active, live := 4, dead := 3 }).set 1
        { stampedSectors.get 1 with st := .reclaiming, live := 0, dead := 254 }).set 4
        { stampedSectors.get 4 with st := .retired, retireLoc := some { sector := 0, line := 5 } }
    active := some 0, seq := 21, act := 3, txn := 7, repair := true, payload := some savedPayload }

set_option synthInstance.maxSize 4000 in
set_option synthInstance.maxHeartbeats 400000 in
theorem witness_MountBuilds_log : Builds scanComplete builtLog where
  distinct := by decide +kernel
  fresh := by decide +kernel
  found := by decide +kernel
  dir := by decide +kernel
  retired := by decide +kernel
  ended := by decide +kernel
  active := ⟨by rintro k ⟨⟩; decide +kernel, nofun⟩
  remaining := by decide +kernel
  others := by decide +kernel
  seq := by decide +kernel
  act := by decide +kernel
  txn := by decide +kernel
  repair := by decide +kernel
  payload := ⟨by rintro bs ⟨⟩; decide +kernel, nofun⟩

theorem witness_MountBuilds_records :
    performs lastRecord .m (.readRecord 0 255 .header) ∧
    lastRecord.store.req = some { purpose := .mountRecord, abandoned := false } ∧ lastRecord.store.st = .mounting ∧
    lastRecord.pins.pfailLow = false ∧ lastRecord.store.scan.toScan = [0] ∧ lastRecord.store.scan.cursor = 255 ∧
    isBlankLine (lastRecord.readRecord 0 255 .header .stored).1.bytes = true ∧
    builtCause builtLog = .none ∧ builtLog.active ≠ none ∧
    scanComplete.store.mount = some (.command 1#8) ∧ scanComplete.cu.flies [] 0x50#8 1#8 [] ∧
    (mountOver (built scanComplete builtLog) .none true).engineRests := by
  and_intros <;> first | (refine no_code ?_; decide +kernel) | decide +kernel

/-- R127–R131: the orphan does not count, the committed record does; the mount ends REPAIRED with three entries. -/
theorem test_mount_builds : after (exec (.mountRecordReadEnd .stored) lastRecord)
    (fun t => (t.dir.map DirEntry.key, (t.sector 1).st, (t.sector 4).st, t.cu.completions)) =
    some ([0x0005#16, 0x0007#16, 0xFF01#16], .reclaiming, .retired, [flightDone 0x50#8 1#8 .ok 2 3 29]) := by
  decide +kernel

/-- The same scan with nothing opened: the candidate's open stamp is placed, or none is left. -/
def nothingOpened (blank : Bool) : State :=
  let x : StampRead := { erase := some (2, 6), opening := if blank then .blank else .invalid }
  { scanComplete with
    sectors := Vector.replicate 32 (stampedEntry 2 6 x)
    store := { scanComplete.store with
      mount := some .automatic
      scan := { MountScan.empty with stamps := List.replicate 32 x, repair := !blank } } }

def builtNothing (blank : Bool) : MountBuild :=
  { found := [], dir := [], sectors := (nothingOpened blank).sectors, active := none, seq := 0, act := 0, txn := 0
    repair := !blank, payload := none }

theorem witness_MountBuilds_nothing : ∀ blank, Builds (nothingOpened blank) (builtNothing blank) := by
  have closed : ∀ blank i, ¬ openedIn (nothingOpened blank) i := by decide +kernel
  intro blank
  exact
    { distinct := ⟨nofun, nofun⟩
      fresh := by revert blank; decide +kernel
      found := ⟨rfl, nofun, nofun⟩
      dir := rfl
      retired := nofun
      ended := fun i h => absurd h.1.1 (closed blank i)
      active := ⟨nofun, fun _ j h => absurd h.1.1 (closed blank j)⟩
      remaining := fun i h => absurd h.1.1 (closed blank i)
      others := fun _ _ _ => rfl
      seq := ⟨nofun, fun i h => absurd h (closed blank i), .inl rfl⟩
      act := ⟨fun i h => absurd h (closed blank i), .inl rfl⟩
      txn := .inl ⟨rfl, nofun⟩
      repair := by
        refine ⟨fun h => .inl h, ?_⟩
        rintro (h | ⟨i, h⟩ | ⟨i, h⟩ | ⟨r, h, -⟩)
        · exact h
        · exact absurd h.1.1 (closed blank i)
        · exact absurd h.1.1.1 (closed blank i)
        · cases h
      payload := ⟨nofun, nofun⟩ }

/-- The last stamps read where no sector is opened. -/
theorem witness_MountBuilds_stamps :
    let read : List StampRead := List.replicate 31 { erase := some (2, 6), opening := .blank } ++
      [{ erase := some (2, 100000), opening := .blank }]
    (read.length = 32 ∧ (∃ x ∈ read, x.erase.map Prod.fst = some 2) ∧ (∃ x ∈ read, x.erase.map Prod.snd = some 100000) ∧
      read.all (fun x => x.erase.all (fun y => decide (y.1 ≤ 2 ∧ y.2 ≤ 100000))) = true) ∧
    (¬ ∃ x ∈ read, x.erase = none) ∧
    (¬ ∃ x ∈ read, (stampedEntry 2 100000 x).st = .erasePending ∧ opens 2 x = false) ∧ ∀ x ∈ read, opens 2 x = false := by
  decide +kernel

/-- The READ of RECORDS at a line of sector 1, of sectors still to scan. -/
def mountScan (p attempts : Nat) (toScan : List SectorIx := [1, 2]) : State :=
  let s := storeBusy base .mounting .mountRecord (.readRecord 1 p .header)
  { s with store := { s.store with scan := { MountScan.empty with
    toScan := toScan, cursor := p, attempts := attempts, appendAt := [(0, 9)] } } }

/-- The last sector's area ends with a record on lines 254 and 255, or with a torn line 255. -/
theorem witness_MountBuilds_areaEnds :
    let s := fun p attempts : Nat => mountScan p attempts [1]
    (performs (s 254 0) .m (.readRecord 1 254 .header) ∧ (s 254 0).store.scan.toScan = [1] ∧
      validRecordAt 254 ((s 254 0).readRecord 1 254 .header (.altered value.bytes)).1 ≠ none ∧ 254 + value.lines = 256) ∧
    ((s 255 1).store.scan.attempts ≠ 0 ∧
      isBlankLine ((s 255 1).readRecord 1 255 .header (.altered [0#8])).1.bytes = false ∧
      validRecordAt 255 ((s 255 1).readRecord 1 255 .header (.altered [0#8])).1 = none) := by
  and_intros <;> decide +kernel

theorem witness_MountBuilds_opens :
    builtCause (builtNothing true) = .none ∧ (builtNothing true).active = none ∧
    ((builtNothing true).sectors.get 0).st = .blank ∧
    (∀ k, ((builtNothing false).sectors.get k).st ≠ .blank) := by
  and_intros <;> decide +kernel

theorem witness_MountReadEnds_records :
    (performs (mountScan 254 0) .m (.readRecord 1 254 .header) ∧ (mountScan 254 0).store.scan.toScan = 1 :: [2] ∧
      (mountScan 254 0).store.scan.cursor = 254) ∧
    isBlankLine ((mountScan 254 0).readRecord 1 254 .header .stored).1.bytes = true ∧
    (validRecordAt 253 ((mountScan 253 0).readRecord 1 253 .header (.altered value.bytes)).1 = some value ∧
      isBlankLine ((mountScan 253 0).readRecord 1 253 .header (.altered value.bytes)).1.bytes = false) ∧
    (validRecordAt 255 ((mountScan 255 0).readRecord 1 255 .header (.altered [0#8])).1 = none ∧
      isBlankLine ((mountScan 255 0).readRecord 1 255 .header (.altered [0#8])).1.bytes = false) ∧
    (validRecordAt 254 ((mountScan 254 1).readRecord 1 254 .header (.altered [0#8])).1 = none ∧
      (mountScan 254 1).store.scan.attempts ≠ 0) := by
  and_intros <;> decide +kernel

/-- The mount's open stamp of sector 5 in progress; with or without other BLANK sectors. -/
def mountOpens (owner : MountOwner) (blanks repair : Bool) : State :=
  let s := inFlight (storeBusy base .mounting (.mountOpen 5 4 20) (.program 5 1 (openStampLine 4 20))) [(0x50#8, 1#8)]
  let s1 := { s with store := { s.store with mount := some owner, scan := { MountScan.empty with repair := repair } } }
  if blanks then s1
  else { s1 with sectors := s1.sectors.map (fun x => { x with st := if x.eraseCount = 6 then .sealed else x.st }) }

theorem witness_MountOpenStampEnd :
    (∀ o ∈ [MountOwner.automatic, .command 1#8],
      performs (mountOpens o true true) .m (.program 5 1 (openStampLine 4 20)) ∧
        (mountOpens o true true).store.req = some { purpose := .mountOpen 5 4 20, abandoned := false } ∧
        (mountOpens o true true).store.st = .mounting ∧ (mountOpens o true true).pins.pfailLow = false ∧
        (mountOpens o true true).store.cause = .none ∧ (mountOpens o true true).store.mount = some o) ∧
    (mountOpens (.command 1#8) true false).cu.flies [] 0x50#8 1#8 [] ∧
    bestBlankBut (mountOpens .automatic true false) 5 3 ∧
    (∀ j : SectorIx, j ≠ 5 → ((mountOpens .automatic false false).sector j).st ≠ .blank) := by
  and_intros <;> first | (refine no_code ?_; decide +kernel) | decide +kernel

def formatIn (step : FormatStep) (toRetire : List SectorIx) : FormatFlight :=
  { generation := 3, toRetire := toRetire, tag := 1#8, step := step }

def formatBusy (s : State) (f : FormatFlight) (purpose : MPurpose) (op : ArrayOp) : State :=
  let s1 := inFlight (storeBusy s .formatting purpose op) [(0x51#8, 1#8)]
  { s1 with lw := LogWriter.reset, store := { s1.store with format := some f, generation := 3 } }

def formatReads (i : SectorIx) : State :=
  formatBusy base (formatIn (.reading i) []) (.formatRead i) (.readLines i 0 1)

theorem witness_Format_reads :
    (performs (formatReads 30) .m (.readLines 30 0 1) ∧
      formats (formatReads 30) (formatIn (.reading 30) []) (.formatRead 30)) ∧
    validEraseStamp (returned (.altered (eraseStampLine 2 100000)) ((formatReads 30).readSpan (lineNo 30 0) 1).1) =
      some (2, 100000) ∧
    validEraseStamp (returned .stored ((formatReads 31).readSpan (lineNo 31 0) 1).1) = none ∧
    (3 :: (List.finRange 32).filter (fun j => decide (3 < j))) ++ [0, 1, 2] =
      allSectors.filter (fun j => decide (((formatReads 31).sector j).st = .blank)) ++
        allSectors.filter (fun j => decide (((formatReads 31).sector j).st ≠ .blank)) ∧
    ((formatReads 31).sector 3).eraseCount < 100000 := by
  and_intros <;> decide +kernel

/-- R112, R113: a READ of slot M that waits when PFAIL# is asserted is kept, and served once the array is idle. -/
theorem test_mount_read_served :
    let s := mountStamps 3
    let waits := { s with arr := { s.arr with
      m := some { op := .readLines 3 0 2, inProgress := false }, h := some { op := .readLines 9 0 1, inProgress := true }
      busy := some .h } }
    after (exec .pfailAsserted waits) (fun t => (t.store.st, t.arr.m)) =
      some (.powerHold, some { op := .readLines 3 0 2, inProgress := false }) := by decide +kernel

/-- R115: an open stamp of slot L left in progress as FORMAT resets the Log Writer, failed, raises PROGRAM-FAULT. -/
theorem test_stray_stamp_faults :
    let s := performing (withStore { base with lw := LogWriter.reset } .formatting) .l
      (.program 5 1 (openStampLine 4 20))
    after (exec (.openStampProgramEnd .failed) s) (fun t => (t.indicated .programFault, t.arr.l)) =
      some (true, none) := by decide +kernel

def formatErasing (todo : List SectorIx) : State :=
  withErase (formatBusy (withEntry (erasing .running) 4 (entry .erasing 99999 0 0 0 0))
    (formatIn (.erasing 4 todo) [7]) (.formatErase 4) (.erase 4)) .m .running

theorem witness_Format_erases :
    performs (formatErasing [6, 0]) .m (.erase 4) ∧
    formats (formatErasing [6, 0]) (formatIn (.erasing 4 [6, 0]) [7]) (.formatErase 4) ∧
    (formatErasing [6, 0]).arr.erase = some { slot := .m, cond := .running, time := 9, suspensions := 2, limit := 24 } ∧
    ((formatErasing [6, 0]).sector 6).eraseCount < 100000 := by
  and_intros <;> decide +kernel

/-- Sector 8 is at the endurance limit, sectors 6 and 9 are not. -/
def formatWorn : State :=
  withEntry (formatErasing [8, 6]) 8 (entry .erasePending 100000 0 0 0 0)

/-- R135: after the failed erase of sector 4 the worn sector 8 is listed with it and sector 6 erased. -/
theorem witness_Format_worn :
    ((8 : SectorIx) :: [6] = [8] ++ [6] ∧ 100000 ≤ (formatWorn.sector 8).eraseCount ∧
      (formatWorn.sector 6).eraseCount < 100000) ∧
    after (exec (.formatEraseEnd .failed) formatWorn)
      (fun t => (t.store.format.map FormatFlight.toRetire, (t.sector 6).st, t.arr.m.map Request.op)) =
      some (some [4, 7, 8], .erasing, some (.erase 6)) := by
  decide +kernel

/-- The stamp program of sector 4, the other sectors BLANK or, when `few`, ERASE-PENDING but for two. -/
def formatStamping (few : Bool) (todo : List SectorIx) : State :=
  let s := if few then
      { base with sectors := Vector.ofFn (fun i : SectorIx =>
        if i.val < 1 then entry .blank 6 0 0 0 0 else entry .erasePending 6 0 0 0 0) }
    else base
  formatBusy (withEntry s 4 (entry .erasing 7 0 0 0 0)) (formatIn (.stamping 4 todo) [])
    (.formatStamp 4) (.program 4 0 (eraseStampLine 3 7))

theorem witness_Format_stamps :
    performs (formatStamping false [6]) .m (.program 4 0 (eraseStampLine 3 7)) ∧
    formats (formatStamping false [6]) (formatIn (.stamping 4 [6]) []) (.formatStamp 4) ∧
    (3 ≤ countIn ((formatStamping false []).sectors.set 4 (entry .blank 7 0 0 0 0)) .blank ∧
      (withEntry (formatStamping false []) 4 (entry .blank 7 0 0 0 0)).candidate = some 5) ∧
    countIn ((formatStamping true []).sectors.set 4 (entry .blank 7 0 0 0 0)) .blank = 2 ∧
    (formatStamping true []).cu.flies [] 0x51#8 1#8 [] := by
  and_intros <;> first | (refine no_code ?_; decide +kernel) | decide +kernel

def formatOpening (toRetire : List SectorIx) : State :=
  let s := formatBusy base (formatIn (.opening 5) toRetire) (.formatOpen 5 1 1) (.program 5 1 (openStampLine 1 1))
  { s with lw := { s.lw with seqCtr := 1, actCtr := 2, txnCtr := 1 } }

theorem witness_Format_opens :
    (performs (formatOpening []) .m (.program 5 1 (openStampLine 1 1)) ∧
      formats (formatOpening []) (formatIn (.opening 5) []) (.formatOpen 5 1 1) ∧
      (formatOpening []).cu.flies [] 0x51#8 1#8 []) ∧
    formats (formatOpening [7, 9]) (formatIn (.opening 5) [7, 9]) (.formatOpen 5 1 1) ∧
    bestBlankBut (formatOpening []) 5 3 := by
  and_intros <;> first | (refine no_code ?_; decide +kernel) | decide +kernel

def formatRetiring (todo : List SectorIx) : State :=
  let s := formatBusy (withEntry (withEntry base 5 (entry .active 1 1 1 0 1)) 7 (entry .erasePending 100000 0 0 0 0))
    (formatIn (.retiring 7 todo) [7, 9]) (.formatRetire 7) (.program 5 2 ((retireRecord 7 1).lineData 0))
  { s with lw := { s.lw with point := some { sector := 5, line := 3 }, seqCtr := 2, actCtr := 2, txnCtr := 1 } }

/-- PFAIL# in a mount and in the erases, stamps and RETIRE records of a format. -/
theorem witness_PfailEntersPowerHold_slotM :
    let stamp := formatStamping false []
    let waits := { stamp with arr := { Sequencer.reset with m := some { op := .program 4 0 [], inProgress := false } } }
    ((mountStamps 3).store.mount = some (.command 1#8) ∧ (mountStamps 3).cu.flies [] 0x50#8 1#8 []) ∧
    ((formatErasing [6]).store.format = some (formatIn (.erasing 4 [6]) [7]) ∧
      (4 : SectorIx) ∉ formatListed (formatIn (.erasing 4 [6]) [7]) ∧ (formatErasing [6]).cu.flies [] 0x51#8 1#8 []) ∧
    (waits.store.format = some (formatIn (.stamping 4 []) []) ∧ ∀ r, waits.arr.m = some r → r.inProgress = false) ∧
    formatListed (formatIn (.retiring 7 [9]) [7, 9]) = [7, 9] := by
  and_intros <;> first | (refine no_code ?_; decide +kernel) | (rintro _ ⟨⟩; rfl) | decide +kernel

/-- R137, log 38: the sector whose RETIRE record is being programmed becomes RETIRED without a location. -/
theorem test_format_pfail_retires :
    after (exec .pfailAsserted (formatRetiring [9]))
      (fun t => ((t.sector 7).st, (t.sector 7).retireLoc, (t.sector 9).st, t.cu.completions.map Completion.status)) =
      some (.retired, none, .retired, [.powerFail]) := by decide +kernel

theorem witness_Format_retires :
    performs (formatRetiring [9]) .m (.program 5 2 ((retireRecord 7 1).lineData 0)) ∧
    formats (formatRetiring [9]) (formatIn (.retiring 7 [9]) [7, 9]) (.formatRetire 7) ∧
    (formatRetiring [9]).lw.point = some { sector := 5, line := 3 } ∧ (7 : SectorIx) ≠ 5 ∧
    1 ≤ ((formatRetiring [9]).sector 5).dead ∧ (formatRetiring []).cu.flies [] 0x51#8 1#8 [] := by
  and_intros <;> first | (refine no_code ?_; decide +kernel) | decide +kernel

end Sys2Proof.Tests
end

section
/-! SUPPORT. The line arithmetic of R7, and what the layout of R181 and R183 gives for the lengths of the encodings. -/

namespace Sys2Proof.Machine

/-! ### The arithmetic of R7 -/

/-- Rounding up: `linesFor` is the one count whose lines hold the 14 bytes and the payload with less than a line to
spare. -/
theorem linesFor_eq_iff {l n : Nat} : linesFor l = n ↔ 14 + l ≤ 16 * n ∧ 16 * n < 14 + l + 16 := by
  unfold linesFor
  omega

/-- The bounds of R7's rounding. -/
theorem linesFor_bounds (l : Nat) : 14 + l ≤ 16 * linesFor l ∧ 16 * linesFor l < 14 + l + 16 :=
  linesFor_eq_iff.mp rfl

/-- A record has a line. -/
theorem linesFor_pos (l : Nat) : 1 ≤ linesFor l := by
  have := linesFor_bounds l
  omega

/-- A payload of R5 keeps a record within 16 lines. -/
theorem linesFor_le_sixteen {l : Nat} (h : l ≤ 242) : linesFor l ≤ 16 := by
  have := linesFor_bounds l
  omega

/-- The first row of R7's table. -/
theorem linesFor_eq_one {l : Nat} (h : l ≤ 2) : linesFor l = 1 :=
  linesFor_eq_iff.mpr (by omega)

/-- The other rows of R7's table. -/
theorem linesFor_eq_of_row {n l : Nat} (hn : 2 ≤ n) (hlow : 16 * n - 29 ≤ l) (hhigh : l ≤ 16 * n - 14) :
    linesFor l = n :=
  linesFor_eq_iff.mpr (by omega)

/-! ### Lengths of the encodings -/

@[simp] theorem length_be16 (n : Nat) : (be16 n).length = 2 := rfl

@[simp] theorem length_be32 (n : Nat) : (be32 n).length = 4 := rfl

@[simp] theorem length_withCheck (bs : List Byte) : (withCheck bs).length = bs.length + 2 := by
  simp [withCheck]

/-- Padding ends at `n` when the bytes do not reach past it. -/
theorem length_padTo {n : Nat} {bs : List Byte} (h : bs.length ≤ n) : (padTo n bs).length = n := by
  simp [padTo, h]

@[simp] theorem length_header (r : Record) : r.header.length = 12 := rfl

/-- The header, payload and check code of a record fit in its lines. -/
theorem length_withCheck_le_lines (r : Record) :
    (withCheck (r.header ++ r.payload)).length ≤ Config.lineBytes * r.lines := by
  have hfit : 14 + r.payload.length ≤ 16 * linesFor r.payload.length := (linesFor_bounds _).1
  simp only [length_withCheck, List.length_append, length_header, Record.lines, Record.length, Config.lineBytes]
  omega

@[simp] theorem length_bytes (r : Record) : r.bytes.length = 16 * r.lines :=
  length_padTo (length_withCheck_le_lines r)

@[simp] theorem length_image (g : GuardSlot) : g.image.length = 6 := rfl

/-- The version byte, the three settings and eight images of R183. -/
@[simp] theorem length_settingsPayload (w : Settings) (g : Vector GuardSlot 8) :
    (settingsPayload w g).length = 52 := by
  simp [settingsPayload, List.length_flatMap]

/-! ### The header in a record's bytes -/

theorem byteAt_append_left {bs : List Byte} {i : Nat} (cs : List Byte) (h : i < bs.length) :
    byteAt (bs ++ cs) i = byteAt bs i :=
  List.getD_append bs cs _ i h

/-- The first 12 bytes of a record's lines are its header. -/
theorem byteAt_bytes_of_header (r : Record) {i : Nat} (h : i < 12) : byteAt r.bytes i = byteAt r.header i := by
  simp only [Record.bytes, padTo, withCheck, List.append_assoc]
  exact byteAt_append_left _ h

/-- The line count of the header is the count of R7, which a byte holds. -/
theorem byteAt_bytes_lines {r : Record} (h : r.length ≤ 242) : (byteAt r.bytes 5).toNat = r.lines := by
  have hcount : r.lines ≤ 16 := linesFor_le_sixteen h
  calc (byteAt r.bytes 5).toNat
    _ = (byteAt r.header 5).toNat := by rw [byteAt_bytes_of_header r (by decide)]
    _ = (BitVec.ofNat 8 r.lines).toNat := rfl
    _ = r.lines % 256 := BitVec.toNat_ofNat ..
    _ = r.lines := Nat.mod_eq_of_lt (by omega)

/-! ### The lines of the records the blocks form -/

/-- A record takes its lines from its payload's length alone. -/
theorem lines_eq_of_length {r : Record} {n l : Nat} (hl : r.payload.length = l) (hn : linesFor l = n) :
    r.lines = n := by
  rw [Record.lines, Record.length, hl, hn]

theorem lines_settingsRecord (w : Settings) (g : Vector GuardSlot 8) (seq : Nat) :
    (settingsRecord (settingsPayload w g) seq).lines = 5 :=
  lines_eq_of_length (length_settingsPayload w g) (linesFor_eq_of_row (by decide) (by decide) (by decide))

/-- Settles O12: the bounds and the table's rows are the arithmetic of `linesFor`; the header's count and the length of
the bytes are facts of the layout; each fixed size is a row of the table at the kind's payload length. -/
theorem lineCounts : Obligations.LineCounts := by
  refine ⟨fun r hr => ?record, fun _ => linesFor_eq_one, fun _ _ hn _ => linesFor_eq_of_row hn, fun _ _ _ => ?tombstone,
    fun _ _ _ => ?commit, fun _ _ => ?reclaimBegin, fun _ _ => ?retire, fun _ _ _ => ?reclaimEnd, lines_settingsRecord⟩
  case record =>
    obtain ⟨hlow, hhigh⟩ : 14 + r.length ≤ 16 * r.lines ∧ 16 * r.lines < 14 + r.length + 16 := linesFor_bounds r.length
    exact ⟨hlow, hhigh, linesFor_pos _, linesFor_le_sixteen hr, byteAt_bytes_lines hr, length_bytes r⟩
  case tombstone => exact lines_eq_of_length rfl (linesFor_eq_one (l := 0) (by decide))
  case commit | reclaimBegin | retire => exact lines_eq_of_length rfl (linesFor_eq_one (l := 1) (by decide))
  case reclaimEnd =>
    exact lines_eq_of_length rfl (linesFor_eq_of_row (l := 3) (by decide) (by decide) (by decide))

end Sys2Proof.Machine
end

section
/-! SUPPORT. The take of a foreground command that answers at once, and SECTOR-QUERY's answer. -/

namespace Sys2Proof.Machine

/-! ### A take answered at once -/

/-- The conditions of R151 let the head be taken by the command of its code. -/
theorem takeable_of_heads {s : State} {e : CmdEntry} {rest : List CmdEntry} {test : Byte → Bool}
    (h : s.heads e rest) (ht : test e.code = true) : s.takeable test = some e := by
  obtain ⟨hqueue, hstore, hget, hplaces⟩ := h
  have hmay : s.mayTake = true := by
    simp [State.mayTake, hstore, hget, Config.completionQueueSize, hplaces]
  simp [State.takeable, hqueue, hmay, ht]

/-- A command answered at its take moves from the queue's head to the completion queue's tail, and nothing else moves
(R153). -/
theorem dequeue_answer_of_heads {s : State} {e : CmdEntry} {rest : List CmdEntry} (h : s.heads e rest)
    (st : Status) (a b c : Nat) :
    s.dequeue.answer e st a b c = { s with cu := s.cu.answered rest (e.done st a b c) } := by
  obtain ⟨hqueue, -⟩ := h
  simp [State.dequeue, State.answer, State.post, CmdUnit.answered, CmdEntry.done, hqueue]

/-! ### SECTOR-QUERY -/

/-- The seven rows of R43's table of state codes. -/
theorem SectorState.code_eq_iff {x : SectorState} {n : Nat} :
    x.code = n ↔ x = .blank ∧ n = 0 ∨ x = .active ∧ n = 1 ∨ x = .sealed ∧ n = 2 ∨ x = .reclaiming ∧ n = 3 ∨
      x = .erasePending ∧ n = 4 ∨ x = .erasing ∧ n = 5 ∨ x = .retired ∧ n = 6 := by
  cases x <;> simp [SectorState.code, eq_comm]

/-- The head SECTOR-QUERY is taken and executed. -/
theorem exec_sectorQuery_of_heads {s : State} {e : CmdEntry} {rest : List CmdEntry} (h : s.heads e rest)
    (hcode : e.code = codeSectorQuery) : exec .sectorQuery s = .next (s.dequeue.takeSectorQuery e) := by
  have htake : s.takeable (fun c => decide (c = codeSectorQuery)) = some e :=
    takeable_of_heads h (decide_eq_true hcode)
  simp only [exec, execSectorQuery, htake]

/-- The two rows of R43's checks. -/
theorem takeSectorQuery_of_badArgument (s : State) {e : CmdEntry} (h : 32 ≤ e.arg0.toNat ∨ 2 ≤ e.arg1.toNat) :
    s.takeSectorQuery e = s.answer e .badArgument 0 0 0 := by
  unfold State.takeSectorQuery
  split
  next hsector =>
    have hview : 2 ≤ e.arg1.toNat := by omega
    rw [if_neg (by omega), if_neg (by omega)]
  next => rfl

/-- What R43 reports of a sector: its first field is the view's. -/
theorem takeSectorQuery_of_sector (s : State) {e : CmdEntry} {i : SectorIx} (hi : e.arg0.toNat = i.val)
    (hview : e.arg1.toNat ≤ 1) :
    s.takeSectorQuery e = s.answer e .ok
      (if e.arg1.toNat = 0 then (s.sector i).eraseCount else (s.sector i).activation)
      (s.sector i).live (s.sector i).queryC := by
  have hlt : e.arg0.toNat < 32 := hi ▸ i.isLt
  have hix : (⟨e.arg0.toNat, hlt⟩ : SectorIx) = i := Fin.ext hi
  simp only [State.takeSectorQuery, dif_pos hlt, hix]
  by_cases hzero : e.arg1.toNat = 0
  · simp only [if_pos hzero]
  · have hone : e.arg1.toNat = 1 := by omega
    simp only [if_neg hzero, if_pos hone]

/-- Settles O37: the head is taken, its answer is that of R43's checks and fields, and an answer at the take moves the
two queues alone. -/
theorem sectorQuery : Obligations.SectorQuery := by
  intro s e rest hheads hcode
  refine ⟨fun hbad => ?refused, fun i x code hi hview hentry hrow => ?reported⟩
  case refused =>
    rw [exec_sectorQuery_of_heads hheads hcode, takeSectorQuery_of_badArgument _ hbad, dequeue_answer_of_heads hheads]
  case reported =>
    have hsector : s.dequeue.sector i = x := hentry
    have hfield : x.queryC = 256 * (code + if x.mark then 0x80 else 0) + x.dead := by
      rw [SectorEntry.queryC, SectorState.code_eq_iff.mpr hrow]
    rw [exec_sectorQuery_of_heads hheads hcode, takeSectorQuery_of_sector _ hi hview, hsector, hfield,
      dequeue_answer_of_heads hheads]

end Sys2Proof.Machine
end

section
/-! SUPPORT. The first two checks of the staging commands, and DISCARD's answer. -/

namespace Sys2Proof.Machine

/-! ### The first two checks of PUT, DELETE and DISCARD -/

/-- What the store state refuses is refused before the transaction is looked at (R65). -/
theorem admitStaging_of_admitWrite {s : State} {st : Status} (h : s.admitWrite = some st) :
    s.admitStaging = some st := by
  simp only [State.admitStaging, h]

theorem admitWrite_of_mounted {s : State} (h : s.store.st = .mounted) : s.admitWrite = none := by
  simp only [State.admitWrite, h]

/-- A commit in flight refuses what the store state lets pass (R65). -/
theorem admitStaging_of_commit {s : State} (h : s.store.st = .mounted) (hcommit : s.tm.commit ≠ none) :
    s.admitStaging = some .busy := by
  simp only [State.admitStaging, admitWrite_of_mounted h]
  exact if_pos (Option.isSome_iff_ne_none.mpr hcommit)

/-- IDLE and OPEN are admitted (R65). -/
theorem admitStaging_of_no_commit {s : State} (h : s.store.st = .mounted) (hcommit : s.tm.commit = none) :
    s.admitStaging = none := by
  simp [State.admitStaging, admitWrite_of_mounted h, hcommit]

/-! ### DISCARD -/

/-- The head DISCARD is taken and executed. -/
theorem exec_discard_of_heads {s : State} {e : CmdEntry} {rest : List CmdEntry} (h : s.heads e rest)
    (hcode : e.code = codeDiscard) : exec .discard s = .next (s.dequeue.takeDiscard e) := by
  have htake : s.takeable (fun c => decide (c = codeDiscard)) = some e :=
    takeable_of_heads h (decide_eq_true hcode)
  simp only [exec, execDiscard, htake]

/-- A refused DISCARD moves the two queues alone. The checks read no queue, so they may be made before the take. -/
theorem exec_discard_of_refused {s : State} {e : CmdEntry} {rest : List CmdEntry} {st : Status} (h : s.heads e rest)
    (hcode : e.code = codeDiscard) (hrefused : s.admitStaging = some st) :
    exec .discard s = .next { s with cu := s.cu.answered rest (e.done st 0 0 0) } := by
  have hchecks : s.dequeue.admitStaging = some st := hrefused
  have htaken : s.dequeue.takeDiscard e = s.dequeue.answer e st 0 0 0 := by
    simp only [State.takeDiscard, hchecks]
  rw [exec_discard_of_heads h hcode, htaken, dequeue_answer_of_heads h]

/-- An admitted DISCARD is an answer at the take by a state whose list is already empty. -/
theorem exec_discard_of_admitted {s : State} {e : CmdEntry} {rest : List CmdEntry} (h : s.heads e rest)
    (hcode : e.code = codeDiscard) (hadmitted : s.admitStaging = none) :
    exec .discard s = .next
      { s with tm := { s.tm with staging := [] }, cu := s.cu.answered rest (e.done .ok s.tm.staging.length 0 0) } := by
  have hchecks : s.dequeue.admitStaging = none := hadmitted
  have htaken : s.dequeue.takeDiscard e = (s.setStaging []).dequeue.answer e .ok s.tm.staging.length 0 0 := by
    simp only [State.takeDiscard, hchecks]
    rfl
  have hemptied : (s.setStaging []).heads e rest := h
  rw [exec_discard_of_heads h hcode, htaken, dequeue_answer_of_heads hemptied]
  rfl

/-- Settles O33: check 1 of R65 is the table of `admitWrite`, check 2 the commit in flight; a DISCARD that one of them
refuses is answered alone, and one that passes both empties the list. -/
theorem discard : Obligations.Discard := by
  intro s e rest hheads hcode
  have refused_of_store {st : Status} (hwrite : s.admitWrite = some st) :=
    exec_discard_of_refused hheads hcode (admitStaging_of_admitWrite hwrite)
  refine ⟨fun hmounted hcommit => ?emptied, fun hmounted hcommit => ?committing, fun hstore => ?readOnly,
    fun hstore => ?unmounted, fun hstore => ?powerHold, fun hstore => ?formatting⟩
  case emptied => exact exec_discard_of_admitted hheads hcode (admitStaging_of_no_commit hmounted hcommit)
  case committing => exact exec_discard_of_refused hheads hcode (admitStaging_of_commit hmounted hcommit)
  case readOnly | unmounted | powerHold | formatting =>
    exact refused_of_store (by simp only [State.admitWrite, hstore])

end Sys2Proof.Machine
end

section
/-! SUPPORT. The Guard Table's coverage: the three modes of R139 by the slots that cover a key. -/

namespace Sys2Proof.Machine

/-! ### Coverage -/

theorem GuardSlot.covers_iff {g : GuardSlot} {k : Key} :
    g.covers k = true ↔ g.inUse = true ∧ g.low ≤ k ∧ k ≤ g.high := by
  rw [GuardSlot.covers, Bool.and_eq_true, decide_eq_true_iff]

/-- A search of the Guard Table finds what one of its eight slots has. -/
theorem any_guards_iff {guards : Vector GuardSlot 8} {p : GuardSlot → Bool} :
    guards.toList.any p = true ↔ ∃ i : GuardIx, p (guards.get i) = true := by
  simp only [Vector.any_toList, Vector.any_eq_true, Fin.exists_iff, Vector.get_eq_getElem]

theorem any_covers_hidden_iff {s : State} {k : Key} :
    s.guards.toList.any (fun g => g.covers k && decide (g.mode = .hidden)) = true ↔
      ∃ i : GuardIx, (s.guards.get i).covers k = true ∧ (s.guards.get i).mode = .hidden := by
  simp only [any_guards_iff, Bool.and_eq_true, decide_eq_true_iff]

/-! ### The mode of a key -/

/-- HIDDEN prevails: it is looked for first. -/
theorem guardMode_eq_hidden_iff {s : State} {k : Key} :
    s.guardMode k = .hidden ↔
      ∃ i : GuardIx, (s.guards.get i).covers k = true ∧ (s.guards.get i).mode = .hidden := by
  rw [← any_covers_hidden_iff, State.guardMode]
  split
  case isTrue hhidden => exact iff_of_true rfl hhidden
  case isFalse hhidden =>
    refine iff_of_false ?_ hhidden
    split <;> exact nofun

/-- A HIDDEN slot covers as any other does, so the first search finds nothing that the second misses. -/
theorem guardMode_eq_none_iff {s : State} {k : Key} :
    s.guardMode k = .none ↔ ¬ ∃ i : GuardIx, (s.guards.get i).covers k = true := by
  rw [State.guardMode]
  split
  case isTrue hhidden =>
    obtain ⟨i, hcovers, -⟩ := any_covers_hidden_iff.mp hhidden
    exact iff_of_false nofun (not_not_intro ⟨i, hcovers⟩)
  case isFalse =>
    rw [← any_guards_iff (p := fun g => g.covers k)]
    split
    case isTrue hcovered => exact iff_of_false nofun (not_not_intro hcovered)
    case isFalse hcovered => exact iff_of_true rfl hcovered

theorem GuardMode.eq_writeGuarded_iff {m : GuardMode} : m = .writeGuarded ↔ m ≠ .none ∧ m ≠ .hidden := by
  cases m <;> decide

/-- Settles O36: HIDDEN and open are each said by one search of the table; WRITE-GUARDED is what neither leaves. -/
theorem guardModeOfKey : Obligations.GuardModeOfKey := by
  intro s k
  simp only [← GuardSlot.covers_iff]
  have hopen : s.guardMode k = .none ↔ ∀ i : GuardIx, ¬ (s.guards.get i).covers k = true :=
    guardMode_eq_none_iff.trans not_exists
  refine ⟨hopen, guardMode_eq_hidden_iff, ?writeGuarded⟩
  case writeGuarded =>
    rw [GuardMode.eq_writeGuarded_iff, Ne, guardMode_eq_none_iff, not_not, Ne, guardMode_eq_hidden_iff]
    simp only [not_exists, not_and, ne_eq]

end Sys2Proof.Machine
end

section
/-! SUPPORT. The byte of a write frame at one location, and CQ-POP's. -/

namespace Sys2Proof.Machine

/-! ### A byte of a write frame -/

/-- A write frame that stands at an address which passes a test is the one found by it. -/
theorem writeFrame_of_frameAt {s : State} {f : Frame} {a : BitVec 6} {test : BitVec 6 → Bool}
    (h : s.frameAt f .write a) (htest : test a = true) : s.writeFrame test = some f := by
  obtain ⟨hport, hdir, rfl⟩ := h
  simp only [State.writeFrame, hport, hdir, htest, decide_true, Bool.and_true, if_true]

/-- Only DATA-IN holds a write frame's address (R172). -/
theorem nextAddr_write_of_ne {a : BitVec 6} (h : a ≠ addrDataIn) : nextAddr .write a = a + 1#6 := by
  rw [nextAddr, if_neg (fun hheld => h hheld.2), if_neg (fun hread => nomatch hread.1)]

/-- After a byte at any location but DATA-IN the frame stands at the next one. -/
theorem afterWrite_eq_movedTo (s : State) {f : Frame} {a : BitVec 6} (haddr : f.addr = a) (h : a ≠ addrDataIn) :
    s.afterWrite f = { s with win := s.win.movedTo f (a + 1#6) } := by
  rw [State.afterWrite, haddr, nextAddr_write_of_ne h, State.setPort, Window.movedTo]

/-! ### CQ-POP -/

/-- The byte at CQ-POP drops the head of the completion queue, if there is one, and moves the frame on. -/
theorem exec_cqPop_of_frameAt {s : State} {f : Frame} (b : Byte) (h : s.frameAt f .write 0x15#6) :
    exec (.cqPop b) s = .next
      { s with win := s.win.movedTo f 0x16#6, cu := { s.cu with completions := s.cu.completions.tail } } := by
  have hframe : s.writeFrame (fun a => decide (a = 0x15#6)) = some f := writeFrame_of_frameAt h (decide_eq_true rfl)
  obtain ⟨-, -, haddr⟩ := h
  simp only [exec, execCqPop, hframe]
  exact congrArg Host.Outcome.next (afterWrite_eq_movedTo _ haddr (by decide))

/-- Settles O25: both clauses are the tail of the completion queue, which is the rest behind a head and the queue itself
when it is empty. -/
theorem cqPop : Obligations.CqPop := by
  refine ⟨fun s f b c rest hframe hqueue => ?removesHead, fun s f b hframe hempty => ?ignored⟩
  case removesHead =>
    have htail : s.cu.completions.tail = rest := by rw [hqueue, List.tail_cons]
    have hexec := exec_cqPop_of_frameAt b hframe
    rw [htail] at hexec
    refine ⟨_, hexec, rfl, ?count, ?headFields⟩
    case count => rw [hqueue, List.length_cons]
    case headFields => cases rest <;> rfl
  case ignored =>
    have htail : s.cu.completions.tail = s.cu.completions := by rw [hempty, List.tail_nil]
    rw [exec_cqPop_of_frameAt b hframe, htail]

end Sys2Proof.Machine
end

section
/-! SUPPORT. What the commands keep: the bounds of `Safe`, fixed guard slots and indications. One lemma per shared
operation; the claims on every step are read off what one command keeps. -/

namespace Sys2Proof.Machine

set_option Elab.async false

/-! ### The two relations -/

/-- The bounds that a change of state keeps. -/
structure Bounds (s t : State) : Prop where
  places : s.places ≤ 8 → t.places ≤ 8
  staging : stagingWithin s.tm.staging → stagingWithin t.tm.staging
  settings : s.settings.inRange → t.settings.inRange
  queue : s.cu.queue.length ≤ 4 → t.cu.queue.length ≤ 4
  input : s.win.input.length ≤ 256 → t.win.input.length ≤ 256
  enables : s.win.intEnable &&& 0xF800#16 = 0#16 → t.win.intEnable &&& 0xF800#16 = 0#16

/-- A change that keeps the bounds, the form and the marks of the array, fixed guard slots and indications, and does not
put the part into reset. -/
structure Keeps (s t : State) : Prop extends Bounds s t where
  wf : s.flash.wf = true → t.flash.wf = true
  marks : s.flash.MarksKept t.flash
  guards : fixedKept s t
  faults : faultsKept s t
  held : t.heldInReset = true → s.heldInReset = true

theorem fixedKept_trans {s t u : State} (h1 : fixedKept s t) (h2 : fixedKept t u) : fixedKept s u := fun i hi => by
  have e := h1 i hi
  rw [h2 i (by rw [e]; exact hi), e]

theorem Bounds.trans {s t u : State} (h1 : Bounds s t) (h2 : Bounds t u) : Bounds s u where
  places := h2.places ∘ h1.places
  staging := h2.staging ∘ h1.staging
  settings := h2.settings ∘ h1.settings
  queue := h2.queue ∘ h1.queue
  input := h2.input ∘ h1.input
  enables := h2.enables ∘ h1.enables

theorem Keeps.trans {s t u : State} (h1 : Keeps s t) (h2 : Keeps t u) : Keeps s u where
  toBounds := h1.toBounds.trans h2.toBounds
  wf := h2.wf ∘ h1.wf
  marks := h1.marks.trans h2.marks
  guards := fixedKept_trans h1.guards h2.guards
  faults := faultsKept_trans h1.faults h2.faults
  held := h1.held ∘ h2.held

theorem Bounds.refl (s : State) : Bounds s s := ⟨id, id, id, id, id, id⟩

theorem Keeps.refl (s : State) : Keeps s s := ⟨.refl s, id, .refl _, fun _ _ => rfl, faultsKept_refl s, id⟩

theorem stagingWithin_nil : stagingWithin [] := by
  simp [stagingWithin, stagedBytesOf]

theorem heldInReset_of_pins {s t : State} (h : t.pins = s.pins) : t.heldInReset = true → s.heldInReset = true := by
  unfold State.heldInReset
  rw [h]
  exact id

theorem Along.keeps {s t : State} (h : Along s t) : Keeps s t where
  places := by
    have hexec : t.cu.executing = s.cu.executing := by rw [h.cu]
    unfold State.places
    rw [hexec, h.places]
    exact id
  staging := fun hs => by
    rcases h.staging with e | e
    · exact e ▸ hs
    · exact e ▸ stagingWithin_nil
  settings := h.settings
  queue := by rw [h.cu]; exact id
  input := by rw [h.win]; exact id
  enables := by rw [h.win]; exact id
  wf := h.wf
  marks := h.marks
  guards := h.guards
  faults := h.faults
  held := heldInReset_of_pins h.pins

theorem Outer.keeps {s t : State} (h : Outer s t) : Keeps s t where
  places := by
    have hexec : t.cu.executing = s.cu.executing := by rw [h.cu]
    unfold State.places
    rw [hexec, h.places]
    exact id
  staging := fun hs => by
    rcases h.staging with e | e
    · exact e ▸ hs
    · exact e ▸ stagingWithin_nil
  settings := h.settings
  queue := by rw [h.cu]; exact id
  input := by rw [h.win]; exact id
  enables := by rw [h.win]; exact id
  wf := fun hw => by rw [h.flash]; exact hw
  marks := by rw [h.flash]; exact .refl _
  guards := h.guards
  faults := h.faults
  held := heldInReset_of_pins h.pins

theorem keeps_grant (s : State) : Keeps s s.grant := (along_grant s).keeps

theorem keeps_conclude {a : Answer} {t : State} (h : conclude a = .next t) : Keeps a.1 t := by
  obtain ⟨u, hu, rfl⟩ := conclude_next h
  exact hu.keeps.trans (keeps_grant u)

/-- A change of the window, the port included, that keeps its indications and bounds. -/
theorem keeps_setWin {s : State} {w : Window} (hi : s.win.input.length ≤ 256 → w.input.length ≤ 256)
    (he : s.win.intEnable &&& 0xF800#16 = 0#16 → w.intEnable &&& 0xF800#16 = 0#16)
    (hf : s.win.faults &&& w.faults = s.win.faults) : Keeps s { s with win := w } :=
  { Keeps.refl s with input := hi, enables := he, faults := hf }

theorem keeps_setPort (s : State) (p : PortState) (b : Option Byte) : Keeps s (s.setPort p b) :=
  keeps_setWin id id (BitVec.and_self)

theorem keeps_afterWrite (s : State) (f : Frame) : Keeps s (s.afterWrite f) := keeps_setPort _ _ _

theorem keeps_raise (s : State) (i : Indication) : Keeps s (s.raise i) := (inner_raise s i).keeps

theorem keeps_raiseIf (s : State) (b : Bool) (i : Indication) : Keeps s (s.raiseIf b i) := (inner_raiseIf s b i).keeps

/-! ### Takes -/

/-- A completion place is left and no GET is executing: a command may be answered, started or executed (R151). -/
def State.hasRoom (s : State) : Prop :=
  s.cu.executing = none ∧ s.cu.completions.length + s.cu.inFlight.length + 1 ≤ 8

theorem hasRoom_dequeue {s : State} {test : Byte → Bool} {e : CmdEntry} (h : s.takeable test = some e) :
    s.dequeue.hasRoom :=
  mayTake_places (takeable_some h).2.1

theorem Along.hasRoom {s t : State} (h : Along s t) (hs : s.hasRoom) : t.hasRoom := by
  obtain ⟨hexec, hroom⟩ := hs
  refine ⟨?_, ?_⟩
  · rw [h.cu]; exact hexec
  · rw [h.places]; exact hroom

theorem keeps_dequeue (s : State) : Keeps s s.dequeue :=
  { Keeps.refl s with
    queue := fun h => by
      rw [State.dequeue_queue, List.length_tail]
      omega }

theorem keeps_post {s : State} (hs : s.hasRoom) (c : Completion) : Keeps s (s.post c) :=
  { Keeps.refl s with
    places := fun _ => by
      obtain ⟨hexec, hroom⟩ := hs
      show (s.cu.completions ++ [c]).length + s.cu.inFlight.length + (if s.cu.executing.isSome then 1 else 0) ≤ 8
      rw [hexec, List.length_append]
      simpa [Nat.add_right_comm] using hroom }

theorem keeps_answer {s : State} (hs : s.hasRoom) (e : CmdEntry) (st : Status) (a b c : Nat) :
    Keeps s (s.answer e st a b c) :=
  keeps_post hs _

theorem keeps_launch {s : State} (hs : s.hasRoom) (e : CmdEntry) : Keeps s (s.launch e) :=
  { Keeps.refl s with
    places := fun _ => by
      obtain ⟨hexec, hroom⟩ := hs
      show s.cu.completions.length + (s.cu.inFlight ++ [(e.code, e.tag)]).length +
        (if s.cu.executing.isSome then 1 else 0) ≤ 8
      rw [hexec, List.length_append]
      simpa [Nat.add_assoc] using hroom }

/-- A refusal that may raise an indication. -/
theorem keeps_raiseIf_answer {s : State} (hs : s.hasRoom) (p : Bool) (i : Indication) (e : CmdEntry) (st : Status)
    (a b c : Nat) : Keeps s ((s.raiseIf p i).answer e st a b c) :=
  (keeps_raiseIf s p i).trans (keeps_answer ((inner_raiseIf s p i).along.hasRoom hs) _ _ _ _ _)

theorem keeps_place (s : State) (x : SlotId) (op : ArrayOp) : Keeps s (s.place x op).1 := (inner_place s x op).keeps

theorem keeps_startGet {s : State} (hs : s.hasRoom) (e : CmdEntry) (d : DirEntry) : Keeps s (s.startGet e d) := by
  refine Keeps.trans ?_ (keeps_place _ _ _)
  obtain ⟨-, hroom⟩ := hs
  exact { Keeps.refl s with places := fun _ => hroom }

theorem keeps_takeGet {s : State} (hs : s.hasRoom) (e : CmdEntry) : Keeps s (s.takeGet e) := by
  unfold State.takeGet
  split
  · exact keeps_answer hs _ _ _ _ _
  · split
    · exact keeps_raiseIf_answer hs _ _ _ _ _ _ _
    · exact (keeps_startGet hs _ _).trans (keeps_grant _)

theorem keeps_takeNext {s : State} (hs : s.hasRoom) (e : CmdEntry) : Keeps s (s.takeNext e) := by
  unfold State.takeNext
  split
  · exact keeps_answer hs _ _ _ _ _
  · split <;> exact keeps_answer hs _ _ _ _ _

/-! ### The staging list -/

theorem stagedBytesOf_eq (l : List Staged) : stagedBytesOf l = (l.map Staged.bytes).sum := rfl

theorem stagedFind_none {l : List Staged} {k : Key} (h : stagedFind l k = none) : k ∉ l.map Staged.key := by
  induction l with
  | nil => exact List.not_mem_nil
  | cons x rest ih =>
    rw [stagedFind] at h
    split at h
    · exact nomatch h
    · rename_i hx
      rw [List.map_cons, List.mem_cons, not_or]
      exact ⟨fun hk => hx hk.symm, ih h⟩

/-- A replacement keeps the keys and their order. -/
theorem map_key_stagedReplace (l : List Staged) (n : Staged) :
    (stagedReplace l n).map Staged.key = l.map Staged.key := by
  induction l with
  | nil => rfl
  | cons x rest ih =>
    rw [stagedReplace]
    split
    · rename_i hx; simp [hx]
    · simp [ih]

theorem mem_stagedReplace {l : List Staged} {n o : Staged} (h : o ∈ stagedReplace l n) : o = n ∨ o ∈ l := by
  induction l with
  | nil => exact .inr h
  | cons x rest ih =>
    rw [stagedReplace] at h
    split at h
    · rcases List.mem_cons.mp h with h | h
      · exact .inl h
      · exact .inr (List.mem_cons_of_mem _ h)
    · rcases List.mem_cons.mp h with h | h
      · exact .inr (h ▸ List.mem_cons_self ..)
      · exact (ih h).imp id (List.mem_cons_of_mem _)

/-- A replacement gives up the bytes of the operation found and takes those of the new one. -/
theorem bytes_stagedReplace {l : List Staged} {n o : Staged} (h : stagedFind l n.key = some o) :
    stagedBytesOf (stagedReplace l n) + o.bytes = stagedBytesOf l + n.bytes := by
  simp only [stagedBytesOf_eq]
  induction l with
  | nil => exact nomatch h
  | cons x rest ih =>
    rw [stagedFind] at h
    rw [stagedReplace]
    split at h
    · cases h
      rename_i hx
      rw [if_pos hx]
      simp only [List.map_cons, List.sum_cons]
      omega
    · rename_i hx
      rw [if_neg hx]
      have := ih h
      simp only [List.map_cons, List.sum_cons]
      omega

/-- A longest value and a user key fit a staged operation. -/
abbrev Staged.within (o : Staged) : Prop := isUserKey o.key = true ∧ o.bytes ≤ Config.maxLength

theorem stagingWithin_replace {l : List Staged} {n o : Staged} (hl : stagingWithin l) (hn : n.within)
    (hf : stagedFind l n.key = some o) (hb : stagedBytesOf l - o.bytes + n.bytes ≤ Config.stagingBytes) :
    stagingWithin (stagedReplace l n) := by
  obtain ⟨hlen, hbytes, hkeys, hops⟩ := hl
  have hkept := map_key_stagedReplace l n
  have hsum := bytes_stagedReplace hf
  refine ⟨?_, ?_, by rw [hkept]; exact hkeys, fun x hx => ?_⟩
  · have := congrArg List.length hkept
    rw [List.length_map, List.length_map] at this
    omega
  · omega
  · rcases mem_stagedReplace hx with rfl | hx
    · exact hn
    · exact hops x hx

theorem stagingWithin_append {l : List Staged} {n : Staged} (hl : stagingWithin l) (hn : n.within)
    (hf : stagedFind l n.key = none) (hlen : l.length < Config.stagingOps)
    (hb : stagedBytesOf l + n.bytes ≤ Config.stagingBytes) : stagingWithin (l ++ [n]) := by
  obtain ⟨-, hbytes, hkeys, hops⟩ := hl
  refine ⟨?_, ?_, ?_, fun x hx => ?_⟩
  · rw [List.length_append]
    exact hlen
  · simpa [stagedBytesOf_eq] using hb
  · rw [List.map_append, List.nodup_append]
    refine ⟨hkeys, by simp, fun a ha b hb => ?_⟩
    rintro rfl
    simp only [List.map_cons, List.map_nil, List.mem_singleton] at hb
    exact stagedFind_none hf (hb ▸ ha)
  · rcases List.mem_append.mp hx with hx | hx
    · exact hops x hx
    · rw [List.mem_singleton.mp hx]
      exact hn

theorem stagingWithin_remove {l : List Staged} (hl : stagingWithin l) (k : Key) : stagingWithin (stagedRemove l k) := by
  obtain ⟨hlen, hbytes, hkeys, hops⟩ := hl
  have hsub : (stagedRemove l k).Sublist l := List.filter_sublist
  refine ⟨hsub.length_le.trans hlen, ?_, hkeys.sublist (hsub.map _), fun x hx => hops x (hsub.mem hx)⟩
  have : stagedBytesOf (stagedRemove l k) ≤ stagedBytesOf l := by
    rw [stagedBytesOf_eq, stagedBytesOf_eq]
    exact (hsub.map _).sum_le_sum (fun _ _ => Nat.zero_le _)
  omega

/-- The checks of PUT that the staging limits rest on (R65). -/
theorem putCheck_none {s : State} {e : CmdEntry} (h : s.putCheck e = none) :
    s.admitStaging = none ∧ isUserKey e.key = true ∧ e.len.toNat ≤ Config.maxLength ∧
      e.len.toNat ≤ s.win.input.length ∧ s.isGuarded e.key = false ∧ s.stagingFull e.key e.len.toNat = false ∧
      s.noPlace e.key = false := by
  unfold State.putCheck at h
  split at h
  · exact nomatch h
  · rename_i hadmit
    simp only [Bool.or_eq_true, decide_eq_true_eq] at h
    split at h
    · exact nomatch h
    split at h
    · exact nomatch h
    split at h
    · exact nomatch h
    split at h
    · exact nomatch h
    split at h
    · exact nomatch h
    · simp_all

/-- A PUT that passes its checks leaves the list within its limits (R63, R66). -/
theorem stagingWithin_put {s : State} {e : CmdEntry} (hl : stagingWithin s.tm.staging) (h : s.putCheck e = none) :
    stagingWithin (stagedPut s.tm.staging { key := e.key, value := some (s.win.input.take e.len.toNat) }) := by
  obtain ⟨-, hkey, hmax, hinput, -, hfull, -⟩ := putCheck_none h
  have hbytes : (Staged.mk e.key (some (s.win.input.take e.len.toNat))).bytes = e.len.toNat := by
    simp [Staged.bytes, hinput]
  have hwithin : (Staged.mk e.key (some (s.win.input.take e.len.toNat))).within := ⟨hkey, hbytes.symm ▸ hmax⟩
  unfold stagedPut
  unfold State.stagingFull State.stagedBytes State.stagedOps at hfull
  simp only
  split
  · rename_i o ho
    rw [ho] at hfull
    simp only [decide_eq_false_iff_not, not_lt] at hfull
    exact stagingWithin_replace hl hwithin ho (by rw [hbytes]; exact hfull)
  · rename_i ho
    rw [ho] at hfull
    simp only [Bool.or_eq_false_iff, decide_eq_false_iff_not, not_lt, not_le] at hfull
    exact stagingWithin_append hl hwithin ho hfull.1 (by rw [hbytes]; exact hfull.2)

/-- A DELETE of a user key leaves the list within its limits (R67). -/
theorem stagingWithin_delete {s : State} {k : Key} (hl : stagingWithin s.tm.staging) (hk : isUserKey k = true) :
    stagingWithin (s.deleteStaged k).1 := by
  have hwithin : (Staged.mk k none).within := ⟨hk, Nat.zero_le _⟩
  have hbound : stagedBytesOf s.tm.staging ≤ Config.stagingBytes := hl.2.1
  unfold State.deleteStaged
  split
  · rename_i o ho
    split
    · split
      · refine stagingWithin_replace hl hwithin ho ?_
        show stagedBytesOf s.tm.staging - o.bytes + 0 ≤ Config.stagingBytes
        omega
      · exact stagingWithin_remove hl k
    · exact hl
  · rename_i ho
    split
    · split
      · exact hl
      · rename_i hfull
        refine stagingWithin_append hl hwithin ho (Nat.lt_of_not_le hfull) ?_
        show stagedBytesOf s.tm.staging + 0 ≤ Config.stagingBytes
        exact hbound
    · exact hl

theorem keeps_setStaging {s : State} {l : List Staged} (h : stagingWithin s.tm.staging → stagingWithin l) :
    Keeps s (s.setStaging l) :=
  { Keeps.refl s with staging := h }

theorem keeps_answerStaged {s : State} (hs : s.hasRoom) (e : CmdEntry) (st : Status) :
    Keeps s (s.answerStaged e st) :=
  keeps_answer hs _ _ _ _ _

theorem keeps_takePut {s : State} (hs : s.hasRoom) (e : CmdEntry) : Keeps s (s.takePut e) := by
  unfold State.takePut
  split
  · exact (keeps_raiseIf s _ _).trans (keeps_answerStaged ((inner_raiseIf s _ _).along.hasRoom hs) _ _)
  · rename_i hcheck
    refine Keeps.trans (t := s.stagePut e) ?_ (keeps_answerStaged (s := s.stagePut e) hs _ _)
    exact (keeps_setStaging (fun hl => stagingWithin_put hl hcheck)).trans
      (keeps_setWin (fun _ => Nat.zero_le _) id BitVec.and_self)

theorem deleteCheck_none {s : State} {e : CmdEntry} (h : s.deleteCheck e = none) :
    s.admitStaging = none ∧ isUserKey e.key = true ∧ s.isGuarded e.key = false := by
  unfold State.deleteCheck at h
  split at h
  · exact nomatch h
  · split at h
    · exact nomatch h
    · split at h
      · exact nomatch h
      · simp_all

theorem keeps_takeDelete {s : State} (hs : s.hasRoom) (e : CmdEntry) : Keeps s (s.takeDelete e) := by
  unfold State.takeDelete
  split
  · exact (keeps_raiseIf s _ _).trans (keeps_answerStaged ((inner_raiseIf s _ _).along.hasRoom hs) _ _)
  · rename_i hcheck
    exact (keeps_setStaging (fun hl => stagingWithin_delete hl (deleteCheck_none hcheck).2.1)).trans
      (keeps_answerStaged (s := s.setStaging (s.deleteStaged e.key).1) hs _ _)

theorem keeps_takeDiscard {s : State} (hs : s.hasRoom) (e : CmdEntry) : Keeps s (s.takeDiscard e) := by
  unfold State.takeDiscard
  split
  · exact keeps_answer hs _ _ _ _ _
  · exact (keeps_setStaging (fun _ => stagingWithin_nil)).trans (keeps_answer (s := s.setStaging []) hs _ _ _ _ _)

/-! ### Settings and guards -/

/-- SETTING gives a known id a value inside its range (R165, R166). -/
theorem inRange_write {w : Settings} {id v before lo hi : Nat} (hw : w.inRange)
    (hid : w.named id = some (before, lo, hi)) (hv : lo ≤ v ∧ v ≤ hi) : (w.write id v).inRange := by
  unfold Settings.named at hid
  unfold Settings.write
  obtain ⟨hthreshold, hauto, hlimit⟩ := hw
  split at hid
  · cases hid; exact ⟨hv, hauto, hlimit⟩
  · cases hid; exact ⟨hthreshold, hv.2, hlimit⟩
  · cases hid; exact ⟨hthreshold, hauto, hv.2⟩
  · exact nomatch hid

theorem inner_changed (s : State) (id v : Nat) :
    Inner { s with settings := s.settings.write id v } (s.changeSetting id v).1 := by
  unfold State.changeSetting
  simp only
  split
  · exact inner_requestSpace _
  · split
    · exact .refl _
    · exact inner_lookForWork _

theorem keeps_takeSetting {s t : State} (hs : s.hasRoom) {e : CmdEntry} (h : s.takeSetting e = .next t) :
    Keeps s t := by
  unfold State.takeSetting at h
  split at h
  · exact (keeps_answer hs _ _ _ _ _).trans (keeps_conclude h)
  · split at h
    · exact (keeps_answer hs _ _ _ _ _).trans (keeps_conclude h)
    · rename_i hid
      split at h
      · rename_i hv
        split at h
        · rename_i u hu
          have hset : Keeps s { s with settings := s.settings.write e.arg0.toNat e.arg1.toNat } :=
            { Keeps.refl s with settings := fun hw => inRange_write hw hid hv }
          have hchange := (inner_changed s e.arg0.toNat e.arg1.toNat).along.trans (along_settle hu)
          have hroom : u.hasRoom := hchange.hasRoom hs
          exact ((hset.trans hchange.keeps).trans (keeps_answer hroom _ _ _ _ _)).trans (keeps_conclude h)
        · exact nomatch h
      · exact (keeps_answer hs _ _ _ _ _).trans (keeps_conclude h)

theorem keeps_setGuard {s : State} {i : GuardIx} {g : GuardSlot}
    (h : (s.guards.get i).fixed = true → g = s.guards.get i) : Keeps s (s.setGuard i g) :=
  { Keeps.refl s with
    guards := fun j hj => by
      rw [State.setGuard_get]
      split
      · rename_i e; subst e; exact h hj
      · rfl }

theorem guardSetCheck_none {s : State} {e : CmdEntry} {i : GuardIx} (h : s.guardSetCheck e i = none) :
    (s.guards.get i).fixed = false := by
  unfold State.guardSetCheck at h
  split at h
  · exact nomatch h
  · split at h
    · exact nomatch h
    · split at h
      · exact nomatch h
      · simp_all

theorem keeps_answerSlot {s : State} (hs : s.hasRoom) (e : CmdEntry) (st : Status) (i : GuardIx) :
    Keeps s (s.answerSlot e st i) :=
  keeps_answer hs _ _ _ _ _

theorem keeps_takeGuardSet {s : State} (hs : s.hasRoom) (e : CmdEntry) : Keeps s (s.takeGuardSet e) := by
  unfold State.takeGuardSet
  split
  · exact keeps_answer hs _ _ _ _ _
  · split
    · split
      · exact keeps_answerSlot hs _ _ _
      · rename_i hcheck
        have hfree := guardSetCheck_none hcheck
        exact (keeps_setGuard (fun hf => nomatch hfree.symm.trans hf)).trans
          (keeps_answerSlot (s := s.setGuard _ _) hs _ _ _)
    · exact keeps_answer hs _ _ _ _ _

theorem keeps_takeGuardFix {s : State} (hs : s.hasRoom) (e : CmdEntry) : Keeps s (s.takeGuardFix e) := by
  unfold State.takeGuardFix
  split
  · exact keeps_answer hs _ _ _ _ _
  · split
    · simp only
      split
      · refine (keeps_setGuard (fun hf => ?_)).trans (keeps_answerSlot (s := s.setGuard _ _) hs _ _ _)
        rw [← hf]
      · exact keeps_answerSlot hs _ _ _
    · exact keeps_answer hs _ _ _ _ _

theorem keeps_takeSectorQuery {s : State} (hs : s.hasRoom) (e : CmdEntry) : Keeps s (s.takeSectorQuery e) := by
  unfold State.takeSectorQuery
  simp only
  split
  · split
    · exact keeps_answer hs _ _ _ _ _
    · split <;> exact keeps_answer hs _ _ _ _ _
  · exact keeps_answer hs _ _ _ _ _

/-! ### Background commands -/

theorem keeps_takeCommitCommand {s : State} (hs : s.hasRoom) (e : CmdEntry) :
    Keeps s (s.takeCommitCommand e).1 := by
  unfold State.takeCommitCommand
  split
  · exact keeps_raiseIf_answer hs _ _ _ _ _ _ _
  · exact (keeps_launch hs e).trans (Inner.trans .same (inner_requestSpace _)).keeps

theorem keeps_takeSaveSettings {s : State} (hs : s.hasRoom) (e : CmdEntry) :
    Keeps s (s.takeSaveSettings e).1 := by
  unfold State.takeSaveSettings
  split
  · exact keeps_raiseIf_answer hs _ _ _ _ _ _ _
  · exact (keeps_launch hs e).trans (Inner.trans .same (inner_requestSpace _)).keeps

theorem keeps_takeReclaim {s : State} (hs : s.hasRoom) (e : CmdEntry) : Keeps s (s.takeReclaim e).1 := by
  unfold State.takeReclaim
  split
  · exact keeps_answer hs _ _ _ _ _
  · split
    · exact keeps_answer hs _ _ _ _ _
    · split
      · exact keeps_answer hs _ _ _ _ _
      · split
        · exact keeps_answer hs _ _ _ _ _
        · exact (keeps_launch hs e).trans (inner_startUnit _ _ _ _).keeps

theorem keeps_takeMount {s : State} (hs : s.hasRoom) (e : CmdEntry) : Keeps s (s.takeMount e) := by
  unfold State.takeMount
  split
  · exact keeps_answer hs _ _ _ _ _
  · exact (keeps_launch hs e).trans (outer_beginMount _ _).keeps

theorem keeps_takeFormat {s : State} (hs : s.hasRoom) (e : CmdEntry) : Keeps s (s.takeFormat e) := by
  unfold State.takeFormat
  split
  · exact keeps_answer hs _ _ _ _ _
  · exact (keeps_launch hs e).trans (outer_beginFormat _ _).keeps

end Sys2Proof.Machine
end

section
/-! SUPPORT. The dispatch: the fourteen takes as one shape, the ends of array operations as one kind of change, and what
each command keeps. -/

namespace Sys2Proof.Machine

set_option Elab.async false

/-! ### The takes -/

/-- The shape of a take: the head entry, when it may be taken and its code passes the test, runs on the queue without
it (R151). -/
def State.takes (s : State) (test : Byte → Bool) (run : State → CmdEntry → Host.Outcome State Fault Refusal) :
    Host.Outcome State Fault Refusal :=
  (s.takeable test).elim (.next s) (run s.dequeue)

theorem exec_get (s : State) :
    exec .get s = s.takes (fun c => decide (c = codeGet)) (fun u e => .next (u.takeGet e)) := by
  unfold exec execGet State.takes
  cases s.takeable _ <;> rfl

theorem exec_nextCommand (s : State) :
    exec .next s = s.takes (fun c => decide (c = codeNext)) (fun u e => .next (u.takeNext e)) := by
  unfold exec execNext State.takes
  cases s.takeable _ <;> rfl

theorem exec_put (s : State) :
    exec .put s = s.takes (fun c => decide (c = codePut)) (fun u e => .next (u.takePut e)) := by
  unfold exec execPut State.takes
  cases s.takeable _ <;> rfl

theorem exec_delete (s : State) :
    exec .delete s = s.takes (fun c => decide (c = codeDelete)) (fun u e => .next (u.takeDelete e)) := by
  unfold exec execDelete State.takes
  cases s.takeable _ <;> rfl

theorem exec_discard (s : State) :
    exec .discard s = s.takes (fun c => decide (c = codeDiscard)) (fun u e => .next (u.takeDiscard e)) := by
  unfold exec execDiscard State.takes
  cases s.takeable _ <;> rfl

theorem exec_commit (s : State) :
    exec .commit s = s.takes (fun c => decide (c = codeCommit)) (fun u e => conclude (u.takeCommitCommand e)) := by
  unfold exec execCommit State.takes
  cases s.takeable _ <;> rfl

theorem exec_setting (s : State) :
    exec .setting s = s.takes (fun c => decide (c = codeSetting)) State.takeSetting := by
  unfold exec execSetting State.takes
  cases s.takeable _ <;> rfl

theorem exec_saveSettings (s : State) :
    exec .saveSettings s =
      s.takes (fun c => decide (c = codeSaveSettings)) (fun u e => conclude (u.takeSaveSettings e)) := by
  unfold exec execSaveSettings State.takes
  cases s.takeable _ <;> rfl

theorem exec_guardSet (s : State) :
    exec .guardSet s = s.takes (fun c => decide (c = codeGuardSet)) (fun u e => .next (u.takeGuardSet e)) := by
  unfold exec execGuardSet State.takes
  cases s.takeable _ <;> rfl

theorem exec_guardFix (s : State) :
    exec .guardFix s = s.takes (fun c => decide (c = codeGuardFix)) (fun u e => .next (u.takeGuardFix e)) := by
  unfold exec execGuardFix State.takes
  cases s.takeable _ <;> rfl

theorem exec_sectorQuery (s : State) :
    exec .sectorQuery s = s.takes (fun c => decide (c = codeSectorQuery)) (fun u e => .next (u.takeSectorQuery e)) := by
  unfold exec execSectorQuery State.takes
  cases s.takeable _ <;> rfl

theorem exec_reclaim (s : State) :
    exec .reclaim s = s.takes (fun c => decide (c = codeReclaim)) (fun u e => conclude (u.takeReclaim e)) := by
  unfold exec execReclaim State.takes
  cases s.takeable _ <;> rfl

theorem exec_mount (s : State) :
    exec .mount s = s.takes (fun c => decide (c = codeMount)) (fun u e => .next (u.takeMount e).grant) := by
  unfold exec execMount State.takes
  cases s.takeable _ <;> rfl

theorem exec_format (s : State) :
    exec .format s = s.takes (fun c => decide (c = codeFormat)) (fun u e => .next (u.takeFormat e).grant) := by
  unfold exec execFormat State.takes
  cases s.takeable _ <;> rfl

theorem exec_unknownCommand (s : State) :
    exec .unknownCommand s =
      s.takes (fun c => !definedCodes.contains c) (fun u e => .next (u.answer e .unknownCommand 0 0 0)) := by
  unfold exec execUnknownCommand State.takes
  cases s.takeable _ <;> rfl

/-- A take that answers has taken its head, or the state stands (log 1). -/
theorem takes_next {s t : State} {test : Byte → Bool} {run : State → CmdEntry → Host.Outcome State Fault Refusal}
    (h : s.takes test run = .next t) : t = s ∨ ∃ e, s.takeable test = some e ∧ run s.dequeue e = .next t := by
  unfold State.takes at h
  cases htake : s.takeable test with
  | none => rw [htake] at h; exact .inl (Host.Outcome.next.inj h).symm
  | some e => rw [htake] at h; exact .inr ⟨e, rfl, h⟩

/-- The conditions of R151 and the head's code let a take run. -/
theorem takes_of_heads {s : State} {e : CmdEntry} {rest : List CmdEntry} {test : Byte → Bool}
    {run : State → CmdEntry → Host.Outcome State Fault Refusal} (h : s.heads e rest) (ht : test e.code = true) :
    s.takes test run = run s.dequeue e := by
  rw [State.takes, takeable_of_heads h ht, Option.elim_some]


/-- The taking of a queued host command, by its code (R152, R159). -/
def hostCommands : List Instr :=
  [.get, .next, .put, .delete, .discard, .commit, .setting, .saveSettings, .guardSet, .guardFix, .sectorQuery,
   .reclaim, .mount, .format, .unknownCommand]

theorem take_of_ite {s : State} {p : Prop} [Decidable p] {x y : Host.Outcome State Fault Refusal}
    (hx : ∃ c ∈ hostCommands, x = exec c s) (hy : ∃ c ∈ hostCommands, y = exec c s) :
    ∃ c ∈ hostCommands, (if p then x else y) = exec c s := by
  split
  · exact hx
  · exact hy

/-- The head is taken as the command of its code takes it (R152, R153). -/
theorem takeHead_cases (s : State) :
    s.cu.queue = [] ∧ s.takeHead = .next s ∨ ∃ c ∈ hostCommands, s.takeHead = exec c s := by
  unfold State.takeHead
  split
  · exact .inl ⟨‹_›, rfl⟩
  · have taken (c : Instr) (hc : c ∈ hostCommands) : ∃ d ∈ hostCommands, exec c s = exec d s := ⟨c, hc, rfl⟩
    refine .inr ?_
    refine take_of_ite (taken .get (by decide)) ?_
    refine take_of_ite (taken .next (by decide)) ?_
    refine take_of_ite (taken .put (by decide)) ?_
    refine take_of_ite (taken .delete (by decide)) ?_
    refine take_of_ite (taken .discard (by decide)) ?_
    refine take_of_ite (taken .commit (by decide)) ?_
    refine take_of_ite (taken .setting (by decide)) ?_
    refine take_of_ite (taken .saveSettings (by decide)) ?_
    refine take_of_ite (taken .guardSet (by decide)) ?_
    refine take_of_ite (taken .guardFix (by decide)) ?_
    refine take_of_ite (taken .sectorQuery (by decide)) ?_
    refine take_of_ite (taken .reclaim (by decide)) ?_
    refine take_of_ite (taken .mount (by decide)) ?_
    exact take_of_ite (taken .format (by decide)) (taken .unknownCommand (by decide))

/-- A take keeps what its run keeps from a state with a completion place left. -/
theorem keeps_takes {s t : State} {test : Byte → Bool} {run : State → CmdEntry → Host.Outcome State Fault Refusal}
    (h : s.takes test run = .next t) (hrun : ∀ u e, u.hasRoom → run u e = .next t → Keeps u t) : Keeps s t := by
  rcases takes_next h with rfl | ⟨e, he, hnext⟩
  · exact .refl _
  · exact (keeps_dequeue s).trans (hrun _ e (hasRoom_dequeue he) hnext)

theorem keeps_next {u v t : State} (h : Host.Outcome.next (φ := Fault) (ρ := Refusal) v = .next t) (hk : Keeps u v) :
    Keeps u t :=
  Host.Outcome.next.inj h ▸ hk

/-- Every take keeps the bounds, fixed slots and indications. -/
theorem keeps_take {c : Instr} {s t : State} (hc : c ∈ hostCommands) (h : exec c s = .next t) : Keeps s t := by
  simp only [hostCommands, List.mem_cons, List.not_mem_nil, or_false] at hc
  rcases hc with rfl | rfl | rfl | rfl | rfl | rfl | rfl | rfl | rfl | rfl | rfl | rfl | rfl | rfl | rfl
  · rw [exec_get] at h
    exact keeps_takes h fun _ e hu hn => keeps_next hn (keeps_takeGet hu e)
  · rw [exec_nextCommand] at h
    exact keeps_takes h fun _ e hu hn => keeps_next hn (keeps_takeNext hu e)
  · rw [exec_put] at h
    exact keeps_takes h fun _ e hu hn => keeps_next hn (keeps_takePut hu e)
  · rw [exec_delete] at h
    exact keeps_takes h fun _ e hu hn => keeps_next hn (keeps_takeDelete hu e)
  · rw [exec_discard] at h
    exact keeps_takes h fun _ e hu hn => keeps_next hn (keeps_takeDiscard hu e)
  · rw [exec_commit] at h
    exact keeps_takes h fun _ e hu hn => (keeps_takeCommitCommand hu e).trans (keeps_conclude hn)
  · rw [exec_setting] at h
    exact keeps_takes h fun _ _ hu hn => keeps_takeSetting hu hn
  · rw [exec_saveSettings] at h
    exact keeps_takes h fun _ e hu hn => (keeps_takeSaveSettings hu e).trans (keeps_conclude hn)
  · rw [exec_guardSet] at h
    exact keeps_takes h fun _ e hu hn => keeps_next hn (keeps_takeGuardSet hu e)
  · rw [exec_guardFix] at h
    exact keeps_takes h fun _ e hu hn => keeps_next hn (keeps_takeGuardFix hu e)
  · rw [exec_sectorQuery] at h
    exact keeps_takes h fun _ e hu hn => keeps_next hn (keeps_takeSectorQuery hu e)
  · rw [exec_reclaim] at h
    exact keeps_takes h fun _ e hu hn => (keeps_takeReclaim hu e).trans (keeps_conclude hn)
  · rw [exec_mount] at h
    exact keeps_takes h fun _ e hu hn => keeps_next hn ((keeps_takeMount hu e).trans (keeps_grant _))
  · rw [exec_format] at h
    exact keeps_takes h fun _ e hu hn => keeps_next hn ((keeps_takeFormat hu e).trans (keeps_grant _))
  · rw [exec_unknownCommand] at h
    exact keeps_takes h fun _ _ hu hn => keeps_next hn (keeps_answer hu _ _ _ _ _)

/-! ### The ends of array operations -/

/-- What the end of an array operation leaves before anything else happens: its slot empty, its request no longer the
Store Controller's, free values drawn, and the array as a PROGRAM or an ERASE leaves it. -/
structure ArrayEnded (s u : State) : Prop where
  rest : u = { s with flash := u.flash, arr := u.arr, store := u.store, freeCount := u.freeCount }
  flash : u.flash = s.flash ∨
    (∃ x sec line data v, performs s x (.program sec line data) ∧ u.flash = (s.programmed sec line data v).flash) ∨
    ∃ x sec v, performs s x (.erase sec) ∧ u.flash = (s.erased sec v).flash
  slots : ∀ x, u.arr.slot x = s.arr.slot x ∨ u.arr.slot x = none
  store : u.store = s.store ∨ u.store = { s.store with req := none }

theorem ArrayEnded.refl (s : State) : ArrayEnded s s := ⟨rfl, .inl rfl, fun _ => .inl rfl, .inl rfl⟩

theorem slot_setSlot (a : Sequencer) (x y : SlotId) (r : Option Request) :
    (a.setSlot x r).slot y = if y = x then r else a.slot y := by
  cases x <;> cases y <;> rfl

theorem slot_setSlot_busy (a : Sequencer) (x y : SlotId) (r : Option Request) (b : Option SlotId) :
    Sequencer.slot { a.setSlot x r with busy := b } y = if y = x then r else a.slot y := by
  cases x <;> cases y <;> rfl

theorem release_slot (s : State) (x y : SlotId) :
    (s.release x).arr.slot y = s.arr.slot y ∨ (s.release x).arr.slot y = none := by
  rw [State.release, slot_setSlot_busy]
  split
  · exact .inr rfl
  · exact .inl rfl

/-- Reading draws free values and changes nothing else. -/
theorem readLine_drawn (s : State) (ln : Nat) : ∃ n, (s.readLine ln).2 = { s with freeCount := n } := by
  unfold State.readLine
  split
  · exact ⟨s.freeCount, rfl⟩
  · exact ⟨s.freeCount + 1, rfl⟩

theorem readSpan_drawn (s : State) (ln n : Nat) : ∃ d, (s.readSpan ln n).2 = { s with freeCount := d } := by
  induction n generalizing s ln with
  | zero => exact ⟨s.freeCount, rfl⟩
  | succ n ih =>
    obtain ⟨d, hd⟩ := readLine_drawn s ln
    obtain ⟨d', hd'⟩ := ih (s.readLine ln).2 (ln + 1)
    refine ⟨d', hd'.trans ?_⟩
    rw [hd]

theorem readRecord_drawn (s : State) (sec : SectorIx) (p : Nat) (len : ReadLen) (r : ReadOutcome) :
    ∃ d, (s.readRecord sec p len r).2 = { s with freeCount := d } :=
  readSpan_drawn _ _ _

theorem ended_read {s : State} {d : Nat} {u : State} (h : u = { s with freeCount := d }) (x : SlotId) :
    ArrayEnded s (u.release x) := by
  subst h
  exact ⟨rfl, .inl rfl, fun y => release_slot s x y, .inl rfl⟩

theorem ended_programmed {s : State} {x : SlotId} {sec : SectorIx} {line : Nat} {data : List Byte}
    (h : s.inHand x = some (.program sec line data)) (v : Verify) :
    ArrayEnded s ((s.programmed sec line data v).release x) := by
  have hp : performs s x (.program sec line data) := inHand_some h
  cases v with
  | passed => exact ⟨rfl, .inr (.inl ⟨x, sec, line, data, .passed, hp, rfl⟩), fun y => release_slot s x y, .inl rfl⟩
  | failed => exact ⟨rfl, .inr (.inl ⟨x, sec, line, data, .failed, hp, rfl⟩), fun y => release_slot s x y, .inl rfl⟩

theorem erased_slot (s : State) (sec : SectorIx) (v : Verify) (y : SlotId) :
    (s.erased sec v).arr.slot y = s.arr.slot y := by
  cases v <;> cases y <;> rfl

theorem ended_erased {s : State} {x : SlotId} {sec : SectorIx} (h : s.inHand x = some (.erase sec)) (v : Verify) :
    ArrayEnded s ((s.erased sec v).release x) := by
  have hp : performs s x (.erase sec) := inHand_some h
  have hslots : ∀ y, ((s.erased sec v).release x).arr.slot y = s.arr.slot y ∨
      ((s.erased sec v).release x).arr.slot y = none := fun y =>
    (release_slot (s.erased sec v) x y).imp_left fun e => e.trans (erased_slot s sec v y)
  cases v with
  | passed => exact ⟨rfl, .inr (.inr ⟨x, sec, .passed, hp, rfl⟩), hslots, .inl rfl⟩
  | failed => exact ⟨rfl, .inr (.inr ⟨x, sec, .failed, hp, rfl⟩), hslots, .inl rfl⟩

/-- The Store Controller's request is gone with its slot's. -/
theorem ArrayEnded.releaseM {s u : State} (h : ArrayEnded s (u.release .m)) : ArrayEnded s u.releaseM where
  rest := by
    have e := h.rest
    unfold State.releaseM
    simp only
    rw [e]
  flash := h.flash
  slots := h.slots
  store := .inr (by
    show { (u.release .m).store with req := none } = _
    rcases h.store with e | e <;> rw [e])

theorem inHandM_some {s : State} {q : MRequest} {op : ArrayOp} (h : s.inHandM = some (q, op)) :
    s.store.req = some q ∧ s.inHand .m = some op := by
  unfold State.inHandM at h
  split at h
  · cases h; exact ⟨‹_›, ‹_›⟩
  · exact nomatch h

end Sys2Proof.Machine
end

section
/-! SUPPORT. The ends of array operations: the answer each leads to, said once for all that is proved of them. -/

namespace Sys2Proof.Machine

set_option Elab.async false

/-- What follows the end of an array operation of slot L, C or M in `s`, from the state `u` that it leaves. -/
inductive EndAnswer (s u : State) : Answer → Prop where
  | line (v : Verify) : EndAnswer s u (u.lineEnded v)
  | opening (v : Verify) : EndAnswer s u (u.openingEnded v)
  | walk (sec : SectorIx) (rr : ReadResult) : EndAnswer s u (u.walkReadEnds sec rr)
  | stamp (sec : SectorIx) (v : Verify) : EndAnswer s u (u.stampEnded sec v)
  | erase (sec : SectorIx) (v : Verify) : EndAnswer s u (u.eraseEnded sec v)
  | resumed (hreq : u.store.req = none) : EndAnswer s u (u.resumeMount, [])
  | mountStamp (i : SectorIx) (bs : List Byte) (hreq : u.store.req = none)
      (hwas : s.store.req = some { purpose := .mountStamp i, abandoned := false }) :
      EndAnswer s u (u.stampRead i bs, [])
  | mountRecord (sec : SectorIx) (rr : ReadResult) (hreq : u.store.req = none)
      (hwas : s.store.req = some { purpose := .mountRecord, abandoned := false }) :
      EndAnswer s u (u.recordRead sec rr, [])
  | mountOpen (k : SectorIx) (a q : Nat) (v : Verify) (hreq : u.store.req = none)
      (hwas : s.store.req = some { purpose := .mountOpen k a q, abandoned := false }) :
      EndAnswer s u (u.mountOpened k a q v, [])
  | abandonedOpen (k : SectorIx) (a q : Nat) (v : Verify) (hreq : u.store.req = none) :
      EndAnswer s u (u.abandonedOpen k a q v, [])
  | formatRead (f : FormatFlight) (i : SectorIx) (bs : List Byte) (hreq : u.store.req = none) :
      EndAnswer s u (u.formatReadEnded f i bs, [])
  | formatErase (f : FormatFlight) (i : SectorIx) (v : Verify) (hreq : u.store.req = none) :
      EndAnswer s u (u.formatErased f i f.todo v, [])
  | formatStamp (f : FormatFlight) (i : SectorIx) (v : Verify) (hreq : u.store.req = none) :
      EndAnswer s u ((u.formatStamped f.generation i v).formatTake f f.todo, [])
  | abandonedStamp (i : SectorIx) (v : Verify) (hreq : u.store.req = none) :
      EndAnswer s u (u.abandonedProgram v (fun t => t.formatStamped t.store.generation i v), [])
  | formatOpen (f : FormatFlight) (k : SectorIx) (a q : Nat) (v : Verify) (hreq : u.store.req = none) :
      EndAnswer s u (u.formatOpened f k a q v, [])
  | formatRetire (f : FormatFlight) (i : SectorIx) (l : Loc) (v : Verify) (hreq : u.store.req = none) :
      EndAnswer s u (u.formatRetireEnded f i f.todo l v, [])
  | abandonedRetire (v : Verify) (hreq : u.store.req = none) :
      EndAnswer s u (u.abandonedProgram v (fun t => t.raiseIf (decide (v = .failed)) .programFault), [])

/-- A step that was an array operation's end: the operation has ended, and its answer's happenings follow. -/
def endsStep (s t : State) : Prop :=
  ∃ u a, ArrayEnded s u ∧ EndAnswer s u a ∧ conclude a = .next t

/-- The ends of the array operations of slots L, C and M. -/
inductive IsArrayEnd : Instr → Prop where
  | line (v : Verify) : IsArrayEnd (.lineProgramEnd v)
  | opening (v : Verify) : IsArrayEnd (.openStampProgramEnd v)
  | walk (r : ReadOutcome) : IsArrayEnd (.reclaimReadEnd r)
  | stamp (v : Verify) : IsArrayEnd (.eraseStampProgramEnd v)
  | erase (v : Verify) : IsArrayEnd (.eraseEnd v)
  | mountStamp (r : ReadOutcome) : IsArrayEnd (.mountStampReadEnd r)
  | mountRecord (r : ReadOutcome) : IsArrayEnd (.mountRecordReadEnd r)
  | mountOpen (v : Verify) : IsArrayEnd (.mountOpenStampEnd v)
  | formatRead (r : ReadOutcome) : IsArrayEnd (.formatStampReadEnd r)
  | formatErase (v : Verify) : IsArrayEnd (.formatEraseEnd v)
  | formatStamp (v : Verify) : IsArrayEnd (.formatStampProgramEnd v)
  | formatOpen (v : Verify) : IsArrayEnd (.formatOpenStampEnd v)
  | formatRetire (v : Verify) : IsArrayEnd (.formatRetireProgramEnd v)

theorem stands_of_next {s t : State} (h : Host.Outcome.next (φ := Fault) (ρ := Refusal) s = .next t) : t = s :=
  (Host.Outcome.next.inj h).symm

theorem endsStep_line {s t : State} {v : Verify} (h : exec (.lineProgramEnd v) s = .next t) : t = s ∨ endsStep s t := by
  unfold exec execLineProgramEnd at h
  simp only at h
  split at h
  · rename_i sec line data hop
    split at h
    · exact .inr ⟨_, _, ended_programmed hop v, .line v, h⟩
    · exact .inl (stands_of_next h)
  · exact .inl (stands_of_next h)

theorem endsStep_opening {s t : State} {v : Verify} (h : exec (.openStampProgramEnd v) s = .next t) :
    t = s ∨ endsStep s t := by
  unfold exec execOpenStampProgramEnd at h
  simp only at h
  split at h
  · rename_i sec line data hop
    split at h
    · exact .inr ⟨_, _, ended_programmed hop v, .opening v, h⟩
    · exact .inl (stands_of_next h)
  · exact .inl (stands_of_next h)

theorem endsStep_walk {s t : State} {r : ReadOutcome} (h : exec (.reclaimReadEnd r) s = .next t) :
    t = s ∨ endsStep s t := by
  unfold exec execReclaimReadEnd at h
  simp only at h
  split at h
  · rename_i sec p len hop
    obtain ⟨d, hd⟩ := readRecord_drawn s sec p len r
    exact .inr ⟨_, _, ended_read hd .c, .walk _ _, h⟩
  · exact .inl (stands_of_next h)

theorem endsStep_stamp {s t : State} {v : Verify} (h : exec (.eraseStampProgramEnd v) s = .next t) :
    t = s ∨ endsStep s t := by
  unfold exec execEraseStampProgramEnd at h
  simp only at h
  split at h
  · rename_i sec line data hop
    exact .inr ⟨_, _, ended_programmed hop v, .stamp _ v, h⟩
  · exact .inl (stands_of_next h)

theorem endsStep_erase {s t : State} {v : Verify} (h : exec (.eraseEnd v) s = .next t) : t = s ∨ endsStep s t := by
  unfold exec execEraseEnd at h
  simp only at h
  split at h
  · rename_i sec hop
    split at h
    · exact .inr ⟨_, _, ended_erased hop v, .erase _ v, h⟩
    · exact .inl (stands_of_next h)
  · exact .inl (stands_of_next h)

theorem endsStep_mountStamp {s t : State} {r : ReadOutcome} (h : exec (.mountStampReadEnd r) s = .next t) :
    t = s ∨ endsStep s t := by
  unfold exec execMountStampReadEnd at h
  simp only at h
  split at h
  · rename_i i ab sec p n hop
    obtain ⟨hwas, -⟩ := inHandM_some hop
    obtain ⟨d, hd⟩ := readSpan_drawn s (lineNo sec p) n
    cases ab with
    | true => exact .inr ⟨_, _, (ended_read hd .m).releaseM, .resumed rfl, h⟩
    | false => exact .inr ⟨_, _, (ended_read hd .m).releaseM, .mountStamp i _ rfl hwas, h⟩
  · exact .inl (stands_of_next h)

theorem endsStep_mountRecord {s t : State} {r : ReadOutcome} (h : exec (.mountRecordReadEnd r) s = .next t) :
    t = s ∨ endsStep s t := by
  unfold exec execMountRecordReadEnd at h
  simp only at h
  split at h
  · rename_i ab sec p len hop
    obtain ⟨hwas, -⟩ := inHandM_some hop
    obtain ⟨d, hd⟩ := readRecord_drawn s sec p len r
    cases ab with
    | true => exact .inr ⟨_, _, (ended_read hd .m).releaseM, .resumed rfl, h⟩
    | false => exact .inr ⟨_, _, (ended_read hd .m).releaseM, .mountRecord sec _ rfl hwas, h⟩
  · exact .inl (stands_of_next h)

theorem endsStep_mountOpen {s t : State} {v : Verify} (h : exec (.mountOpenStampEnd v) s = .next t) :
    t = s ∨ endsStep s t := by
  unfold exec execMountOpenStampEnd at h
  simp only at h
  split at h
  · rename_i k a q ab sec line data hop
    obtain ⟨hwas, hhand⟩ := inHandM_some hop
    cases ab with
    | true => exact .inr ⟨_, _, (ended_programmed hhand v).releaseM, .abandonedOpen k a q v rfl, h⟩
    | false => exact .inr ⟨_, _, (ended_programmed hhand v).releaseM, .mountOpen k a q v rfl hwas, h⟩
  · exact .inl (stands_of_next h)

theorem endsStep_formatRead {s t : State} {r : ReadOutcome} (h : exec (.formatStampReadEnd r) s = .next t) :
    t = s ∨ endsStep s t := by
  unfold exec execFormatStampReadEnd at h
  simp only at h
  split at h
  · rename_i sec p n hop
    obtain ⟨d, hd⟩ := readSpan_drawn s (lineNo sec p) n
    exact .inr ⟨_, _, (ended_read hd .m).releaseM, .resumed rfl, h⟩
  · rename_i i sec p n f hop hformat
    obtain ⟨d, hd⟩ := readSpan_drawn s (lineNo sec p) n
    exact .inr ⟨_, _, (ended_read hd .m).releaseM, .formatRead f i _ rfl, h⟩
  · exact .inl (stands_of_next h)

theorem endsStep_formatErase {s t : State} {v : Verify} (h : exec (.formatEraseEnd v) s = .next t) :
    t = s ∨ endsStep s t := by
  unfold exec execFormatEraseEnd at h
  simp only at h
  split at h
  · rename_i i sec f hop hformat
    split at h
    · exact .inr ⟨_, _, (ended_erased (inHandM_some hop).2 v).releaseM, .formatErase f i v rfl, h⟩
    · exact .inl (stands_of_next h)
  · exact .inl (stands_of_next h)

theorem endsStep_formatStamp {s t : State} {v : Verify} (h : exec (.formatStampProgramEnd v) s = .next t) :
    t = s ∨ endsStep s t := by
  unfold exec execFormatStampProgramEnd at h
  simp only at h
  split at h
  · rename_i i sec line data hop
    exact .inr ⟨_, _, (ended_programmed (inHandM_some hop).2 v).releaseM, .abandonedStamp i v rfl, h⟩
  · rename_i i sec line data f hop hformat
    exact .inr ⟨_, _, (ended_programmed (inHandM_some hop).2 v).releaseM, .formatStamp f i v rfl, h⟩
  · exact .inl (stands_of_next h)

theorem endsStep_formatOpen {s t : State} {v : Verify} (h : exec (.formatOpenStampEnd v) s = .next t) :
    t = s ∨ endsStep s t := by
  unfold exec execFormatOpenStampEnd at h
  simp only at h
  split at h
  · rename_i k a q sec line data hop
    exact .inr ⟨_, _, (ended_programmed (inHandM_some hop).2 v).releaseM, .abandonedOpen k a q v rfl, h⟩
  · rename_i k a q sec line data f hop hformat
    exact .inr ⟨_, _, (ended_programmed (inHandM_some hop).2 v).releaseM, .formatOpen f k a q v rfl, h⟩
  · exact .inl (stands_of_next h)

theorem endsStep_formatRetire {s t : State} {v : Verify} (h : exec (.formatRetireProgramEnd v) s = .next t) :
    t = s ∨ endsStep s t := by
  unfold exec execFormatRetireProgramEnd at h
  simp only at h
  split at h
  · rename_i i sec line data hop
    exact .inr ⟨_, _, (ended_programmed (inHandM_some hop).2 v).releaseM, .abandonedRetire v rfl, h⟩
  · rename_i i sec line data f hop hformat
    exact .inr ⟨_, _, (ended_programmed (inHandM_some hop).2 v).releaseM, .formatRetire f i _ v rfl, h⟩
  · exact .inl (stands_of_next h)

/-- An end of an array operation that the array performs is followed by its answer; any other changes nothing (log 1). -/
theorem endsStep_of_exec {c : Instr} {s t : State} (hc : IsArrayEnd c) (h : exec c s = .next t) :
    t = s ∨ endsStep s t := by
  cases hc with
  | line v => exact endsStep_line h
  | opening v => exact endsStep_opening h
  | walk r => exact endsStep_walk h
  | stamp v => exact endsStep_stamp h
  | erase v => exact endsStep_erase h
  | mountStamp r => exact endsStep_mountStamp h
  | mountRecord r => exact endsStep_mountRecord h
  | mountOpen v => exact endsStep_mountOpen h
  | formatRead r => exact endsStep_formatRead h
  | formatErase v => exact endsStep_formatErase h
  | formatStamp v => exact endsStep_formatStamp h
  | formatOpen v => exact endsStep_formatOpen h
  | formatRetire v => exact endsStep_formatRetire h

/-! ### What the ends keep -/

theorem keeps_walkReadEnds (s : State) (v : SectorIx) (rr : ReadResult) : Keeps s (s.walkReadEnds v rr).1 := by
  unfold State.walkReadEnds
  split
  · exact (inner_walkRead _ _ _).keeps
  · exact .refl s

theorem keeps_abandonedProgram {s : State} (v : Verify) {effect : State → State} (h : Outer s (effect s)) :
    Keeps s (s.abandonedProgram v effect) := by
  unfold State.abandonedProgram
  split
  · exact h.keeps
  · exact ((inner_raiseIf s _ _).toOuter.trans (outer_resumeMount _)).keeps

theorem keeps_endAnswer {s u : State} {a : Answer} (h : EndAnswer s u a) : Keeps u a.1 := by
  cases h with
  | line v => exact (inner_lineEnded _ _).keeps
  | opening v => exact (inner_openingEnded _ _).keeps
  | walk sec rr => exact keeps_walkReadEnds _ _ _
  | stamp sec v => exact (inner_stampEnded _ _ _).keeps
  | erase sec v => exact (inner_eraseEnded _ _ _).keeps
  | resumed => exact (outer_resumeMount _).keeps
  | mountStamp i bs => exact (outer_stampRead _ _ _).keeps
  | mountRecord sec rr => exact (outer_recordRead _ _ _).keeps
  | mountOpen k a q v => exact (outer_mountOpened _ _ _ _ _).keeps
  | abandonedOpen k a q v => exact (outer_abandonedOpen _ _ _ _ _).keeps
  | formatRead f i bs => exact (outer_formatReadEnded _ _ _ _).keeps
  | formatErase f i v => exact (outer_formatErased _ _ _ _ _).keeps
  | formatStamp f i v => exact ((outer_formatStamped _ _ _ _).trans (outer_formatTake _ _ _)).keeps
  | abandonedStamp i v =>
    exact keeps_abandonedProgram (effect := fun t => t.formatStamped t.store.generation i v) v
      (outer_formatStamped _ _ _ _)
  | formatOpen f k a q v => exact (outer_formatOpened _ _ _ _ _ _).keeps
  | formatRetire f i l v => exact (outer_formatRetireEnded _ _ _ _ _ _).keeps
  | abandonedRetire v => exact keeps_abandonedProgram v (inner_raiseIf _ _ _).toOuter

theorem keeps_of_endsStep {s t : State} (h : endsStep s t) : ∃ u, ArrayEnded s u ∧ Keeps u t := by
  obtain ⟨u, a, hu, ha, ht⟩ := h
  exact ⟨u, hu, (keeps_endAnswer ha).trans (keeps_conclude ht)⟩

end Sys2Proof.Machine
end

section
/-! SUPPORT. What every command keeps, and the claims on every step that follow. -/

namespace Sys2Proof.Machine

set_option Elab.async false

/-! ### Frames -/

/-- The enables that do not exist stay 0 under the mask of those that do (R179). -/
theorem enables_mask (w : BitVec 16) : w &&& intEnableMask &&& 0xF800#16 = 0#16 := by
  rw [BitVec.and_assoc, show intEnableMask &&& 0xF800#16 = 0#16 by decide, BitVec.and_zero]

theorem keeps_offerCommand (s : State) (code : Byte) : Keeps s (s.offerCommand code) := by
  unfold State.offerCommand
  split
  · rename_i hroom
    exact { Keeps.refl s with
      queue := fun _ => by
        rw [List.length_append]
        exact hroom }
  · exact keeps_raise _ _

theorem keeps_setParameters (s : State) (u : CmdUnit)
    (hu : u = { s.cu with
      tag := u.tag, key := u.key, len := u.len, arg0 := u.arg0, arg1 := u.arg1, arg2 := u.arg2, arg3 := u.arg3 }) :
    Keeps s { s with cu := u } :=
  { Keeps.refl s with
    places := by
      rw [hu]
      exact id
    queue := by
      rw [hu]
      exact id }

theorem keeps_setIntEnable (s : State) (w : BitVec 16) :
    Keeps s { s with win := { s.win with intEnable := w &&& intEnableMask } } :=
  keeps_setWin id (fun _ => enables_mask w) BitVec.and_self

theorem keeps_writeLocation (s : State) (a : BitVec 6) (b : Byte) : Keeps s (s.writeLocation a b) := by
  unfold State.writeLocation
  split
  · exact keeps_setIntEnable _ _
  · exact keeps_setIntEnable _ _
  · exact keeps_setParameters s _ rfl
  · exact keeps_setParameters s _ rfl
  · exact keeps_setParameters s _ rfl
  · exact keeps_setParameters s _ rfl
  · exact keeps_setParameters s _ rfl
  · exact keeps_setParameters s _ rfl
  · exact keeps_setParameters s _ rfl
  · exact keeps_setParameters s _ rfl
  · exact keeps_offerCommand _ _
  · exact .refl s

theorem keeps_acceptByte (s : State) (b : Byte) : Keeps s (s.acceptByte b) := by
  unfold State.acceptByte
  split
  · rename_i hfits
    refine keeps_setWin (fun _ => ?_) id BitVec.and_self
    show (s.win.input ++ [b]).length ≤ 256
    rw [List.length_append]
    exact hfits.1
  · exact keeps_raise _ _

theorem keeps_clearInput (s : State) : Keeps s s.clearInput := by
  unfold State.clearInput
  split
  · exact keeps_raise _ _
  · exact keeps_setWin (fun _ => Nat.zero_le _) id BitVec.and_self

theorem keeps_popCompletion (s : State) :
    Keeps s { s with cu := { s.cu with completions := s.cu.completions.tail } } :=
  { Keeps.refl s with
    places := by
      simp only [State.places, List.length_tail]
      omega }

theorem keeps_readByte (s : State) (f : Frame) : Keeps s (s.readByte f) := by
  unfold State.readByte
  split
  · exact (keeps_setWin (w := { s.win with outPos := s.win.outPos + 1 }) id id BitVec.and_self).trans
      (keeps_setPort _ _ _)
  · exact keeps_setPort _ _ _

theorem keeps_registerWrite {b : Byte} {s t : State} (h : exec (.registerWrite b) s = .next t) : Keeps s t := by
  unfold exec execRegisterWrite at h
  simp only at h
  split at h
  · exact stands_of_next h ▸ .refl s
  · exact keeps_next h ((keeps_writeLocation s _ b).trans (keeps_afterWrite _ _))

theorem keeps_cqPop {b : Byte} {s t : State} (h : exec (.cqPop b) s = .next t) : Keeps s t := by
  unfold exec execCqPop at h
  simp only at h
  split at h
  · exact stands_of_next h ▸ .refl s
  · exact keeps_next h ((keeps_popCompletion s).trans (keeps_afterWrite _ _))

theorem keeps_dataIn {b : Byte} {s t : State} (h : exec (.dataIn b) s = .next t) : Keeps s t := by
  unfold exec execDataIn at h
  simp only at h
  split at h
  · exact stands_of_next h ▸ .refl s
  · exact keeps_next h ((keeps_acceptByte s b).trans (keeps_afterWrite _ _))

theorem keeps_inClear {b : Byte} {s t : State} (h : exec (.inClear b) s = .next t) : Keeps s t := by
  unfold exec execInClear at h
  simp only at h
  split at h
  · exact stands_of_next h ▸ .refl s
  · exact keeps_next h ((keeps_clearInput s).trans (keeps_afterWrite _ _))

theorem keeps_dataOut {s t : State} (h : exec .dataOut s = .next t) : Keeps s t := by
  unfold exec execDataOut at h
  simp only at h
  split at h
  · split at h
    · exact keeps_next h (keeps_readByte _ _)
    · exact stands_of_next h ▸ .refl s
  · exact stands_of_next h ▸ .refl s
  · exact stands_of_next h ▸ .refl s

theorem keeps_controlByte {b : FirstByte} {s t : State} (h : exec (.controlByte b) s = .next t) : Keeps s t := by
  unfold exec execControlByte at h
  simp only at h
  split at h
  · split at h
    · exact keeps_next h (keeps_setPort _ _ _)
    · exact keeps_next h (keeps_setPort _ _ _)
  · exact stands_of_next h ▸ .refl s
  · exact stands_of_next h ▸ .refl s

/-! ### Pins and the other commands -/

theorem keeps_setPfail (s : State) (low : Bool) : Keeps s (s.setPfail low) := { Keeps.refl s with }

theorem keeps_releaseReset (s : State) : Keeps s (s.setReset false) :=
  { Keeps.refl s with
    held := fun h => by
      rw [State.heldInReset, Bool.or_eq_true] at h ⊢
      exact .inr (h.resolve_left Bool.false_ne_true) }

theorem keeps_releaseVcc (s : State) : Keeps s (s.setVcc true) :=
  { Keeps.refl s with
    held := fun h => by
      rw [State.heldInReset, Bool.or_eq_true] at h ⊢
      exact .inl (h.resolve_right Bool.false_ne_true) }

theorem keeps_endReset (s : State) : Keeps s s.endReset := by
  unfold State.endReset
  split
  · exact .refl s
  · exact (outer_beginMount _ _).keeps

theorem keeps_resetReleased {s t : State} (h : exec .resetReleased s = .next t) : Keeps s t := by
  unfold exec execResetReleased at h
  simp only at h
  split at h
  · exact keeps_next h (((keeps_releaseReset s).trans (keeps_endReset _)).trans (keeps_grant _))
  · exact stands_of_next h ▸ .refl s

theorem keeps_vccInOperatingRange {s t : State} (h : exec .vccInOperatingRange s = .next t) : Keeps s t := by
  unfold exec execVccInOperatingRange at h
  simp only at h
  split at h
  · exact stands_of_next h ▸ .refl s
  · exact keeps_next h (((keeps_releaseVcc s).trans (keeps_endReset _)).trans (keeps_grant _))

theorem keeps_pfailAsserted {s t : State} (h : exec .pfailAsserted s = .next t) : Keeps s t := by
  unfold exec execPfailAsserted at h
  simp only at h
  split at h
  · exact stands_of_next h ▸ .refl s
  · split at h
    · exact keeps_next h (keeps_setPfail _ _)
    · exact (((keeps_setPfail s _).trans (keeps_raise _ _)).trans (outer_powerFails _).keeps).trans (keeps_conclude h)

theorem keeps_suspend (s : State) (e : EraseRun) : Keeps s (s.suspend e) := { Keeps.refl s with }

theorem keeps_eraseSuspended {s t : State} (h : exec .eraseSuspended s = .next t) : Keeps s t := by
  unfold exec execEraseSuspended at h
  simp only at h
  split at h
  · split at h
    · exact keeps_next h ((keeps_suspend s _).trans (keeps_grant _))
    · exact stands_of_next h ▸ .refl s
  · exact stands_of_next h ▸ .refl s

theorem keeps_commitRecordOffer {s t : State} (h : exec .commitRecordOffer s = .next t) : Keeps s t := by
  unfold exec execCommitRecordOffer at h
  simp only at h
  split at h
  · exact stands_of_next h ▸ .refl s
  · exact (inner_offerCommit _ _).keeps.trans (keeps_conclude h)

/-! ### The end of a GET -/

/-- The GET's place passes to its completion (R153). -/
theorem keeps_postGet {s : State} (h : s.cu.executing ≠ none) (g : GetFlight) (st : Status) (a b c : Nat) :
    Keeps s (s.postGet g st a b c) :=
  { Keeps.refl s with
    places := by
      have hexec : s.cu.executing.isSome = true := Option.isSome_iff_ne_none.mpr h
      simp only [State.places, State.postGet, State.post, hexec, List.length_append, List.length_cons, List.length_nil,
        Option.isSome_none, if_true, Bool.false_eq_true, if_false]
      omega }

theorem keeps_loadOutput (s : State) (bytes : List Byte) : Keeps s (s.loadOutput bytes) :=
  keeps_setWin id id BitVec.and_self

theorem keeps_getEnds {s : State} (h : s.cu.executing ≠ none) (g : GetFlight) (rr : ReadResult) :
    Keeps s (s.getEnds g rr) := by
  unfold State.getEnds
  split
  · exact (keeps_loadOutput s _).trans (keeps_postGet (s := s.loadOutput _) h _ _ _ _ _)
  · exact (keeps_raise s .readFault).trans (keeps_postGet (s := s.raise .readFault) h _ _ _ _ _)

theorem keeps_takeHead {s t : State} (h : s.takeHead = .next t) : Keeps s t := by
  rcases takeHead_cases s with ⟨-, hn⟩ | ⟨c, hc, hx⟩
  · rw [hn] at h
    exact stands_of_next h ▸ .refl s
  · rw [hx] at h
    exact keeps_take hc h

theorem grantAfter_next {o : Host.Outcome State Fault Refusal} {t : State} (h : grantAfter o = .next t) :
    ∃ u, o = .next u ∧ t = u.grant := by
  cases o with
  | next u => exact ⟨u, rfl, (Host.Outcome.next.inj h).symm⟩
  | fault f => exact nomatch h
  | refused r => exact nomatch h

/-- The end of a GET's READ: the operation has ended, the GET is answered, and the head of the queue is taken. -/
theorem getReadEnd_next {r : ReadOutcome} {s t : State} (h : exec (.getReadEnd r) s = .next t) :
    t = s ∨ ∃ g u v rr, s.cu.executing = some g ∧ ArrayEnded s u ∧ u.cu = s.cu ∧ u.store = s.store ∧
      (u.getEnds g rr).takeHead = .next v ∧ t = v.grant := by
  unfold exec execGetReadEnd at h
  simp only at h
  split at h
  · rename_i g sec p len hg hop
    obtain ⟨d, hd⟩ := readRecord_drawn s sec p len r
    obtain ⟨v, hv, ht⟩ := grantAfter_next h
    refine .inr ⟨g, _, v, _, hg, ended_read hd .h, ?_, ?_, hv, ht⟩ <;> rw [hd] <;> rfl
  · exact .inl (stands_of_next h)

theorem ended_getReadEnd {r : ReadOutcome} {s t : State} (h : exec (.getReadEnd r) s = .next t) :
    ∃ u, ArrayEnded s u ∧ Keeps u t := by
  rcases getReadEnd_next h with rfl | ⟨g, u, v, rr, hg, hu, hcu, -, hv, rfl⟩
  · exact ⟨_, .refl _, .refl _⟩
  · have hexec : u.cu.executing ≠ none := by
      rw [hcu, hg]
      exact nofun
    exact ⟨u, hu, ((keeps_getEnds hexec g rr).trans (keeps_takeHead hv)).trans (keeps_grant v)⟩

/-! ### Every command -/

theorem ended_of_keeps {s t : State} (h : Keeps s t) : ∃ u, ArrayEnded s u ∧ Keeps u t := ⟨s, .refl s, h⟩

theorem ended_of_arrayEnd {c : Instr} {s t : State} (hc : IsArrayEnd c) (h : exec c s = .next t) :
    ∃ u, ArrayEnded s u ∧ Keeps u t := by
  rcases endsStep_of_exec hc h with rfl | h
  · exact ⟨_, .refl _, .refl _⟩
  · exact keeps_of_endsStep h

theorem ended_of_take {c : Instr} {s t : State} (hc : c ∈ hostCommands) (h : exec c s = .next t) :
    ∃ u, ArrayEnded s u ∧ Keeps u t :=
  ended_of_keeps (keeps_take hc h)

/-- Every command but a write to FAULTS and the resets: an array operation may end in it, and everything else it does
keeps the bounds, the array's form and marks, fixed slots and indications. -/
theorem ended_of_exec {c : Instr} {s t : State} (hfaults : ∀ b, c ≠ .faults b) (hpower : c ≠ .powerOnReset)
    (hreset : c ≠ .resetAsserted) (hsoft : ∀ b, c ≠ .softReset b) (h : exec c s = .next t) :
    ∃ u, ArrayEnded s u ∧ Keeps u t := by
  cases c with
  | powerOnReset => exact absurd rfl hpower
  | resetAsserted => exact absurd rfl hreset
  | softReset b => exact absurd rfl (hsoft b)
  | faults b => exact absurd rfl (hfaults b)
  | resetReleased => exact ended_of_keeps (keeps_resetReleased h)
  | vccInOperatingRange => exact ended_of_keeps (keeps_vccInOperatingRange h)
  | pfailAsserted => exact ended_of_keeps (keeps_pfailAsserted h)
  | pfailDeasserted => exact ended_of_keeps (keeps_next h (keeps_setPfail _ _))
  | registerWrite b => exact ended_of_keeps (keeps_registerWrite h)
  | cqPop b => exact ended_of_keeps (keeps_cqPop h)
  | dataIn b => exact ended_of_keeps (keeps_dataIn h)
  | inClear b => exact ended_of_keeps (keeps_inClear h)
  | dataOut => exact ended_of_keeps (keeps_dataOut h)
  | controlByte b => exact ended_of_keeps (keeps_controlByte h)
  | csRisingEdge => exact ended_of_keeps (keeps_next h (keeps_setPort _ _ _))
  | get => exact ended_of_take (by decide) h
  | next => exact ended_of_take (by decide) h
  | put => exact ended_of_take (by decide) h
  | delete => exact ended_of_take (by decide) h
  | discard => exact ended_of_take (by decide) h
  | commit => exact ended_of_take (by decide) h
  | setting => exact ended_of_take (by decide) h
  | saveSettings => exact ended_of_take (by decide) h
  | guardSet => exact ended_of_take (by decide) h
  | guardFix => exact ended_of_take (by decide) h
  | sectorQuery => exact ended_of_take (by decide) h
  | reclaim => exact ended_of_take (by decide) h
  | mount => exact ended_of_take (by decide) h
  | format => exact ended_of_take (by decide) h
  | unknownCommand => exact ended_of_take (by decide) h
  | commitRecordOffer => exact ended_of_keeps (keeps_commitRecordOffer h)
  | getReadEnd r => exact ended_getReadEnd h
  | eraseSuspended => exact ended_of_keeps (keeps_eraseSuspended h)
  | lineProgramEnd v => exact ended_of_arrayEnd (.line v) h
  | openStampProgramEnd v => exact ended_of_arrayEnd (.opening v) h
  | reclaimReadEnd r => exact ended_of_arrayEnd (.walk r) h
  | eraseStampProgramEnd v => exact ended_of_arrayEnd (.stamp v) h
  | eraseEnd v => exact ended_of_arrayEnd (.erase v) h
  | mountStampReadEnd r => exact ended_of_arrayEnd (.mountStamp r) h
  | mountRecordReadEnd r => exact ended_of_arrayEnd (.mountRecord r) h
  | mountOpenStampEnd v => exact ended_of_arrayEnd (.mountOpen v) h
  | formatStampReadEnd r => exact ended_of_arrayEnd (.formatRead r) h
  | formatEraseEnd v => exact ended_of_arrayEnd (.formatErase v) h
  | formatStampProgramEnd v => exact ended_of_arrayEnd (.formatStamp v) h
  | formatOpenStampEnd v => exact ended_of_arrayEnd (.formatOpen v) h
  | formatRetireProgramEnd v => exact ended_of_arrayEnd (.formatRetire v) h

/-! ### Resets and FAULTS -/

/-- A write to FAULTS changes the indications and the frame (R178). -/
theorem faults_next {b : Byte} {s t : State} (h : exec (.faults b) s = .next t) :
    ∃ w : Window, w.input = s.win.input ∧ w.intEnable = s.win.intEnable ∧ t = { s with win := w } := by
  unfold exec execFaults at h
  simp only at h
  split at h
  · exact ⟨s.win, rfl, rfl, stands_of_next h⟩
  · exact ⟨_, by rfl, by rfl, (stands_of_next h).trans rfl⟩

/-- What a reset leaves: the array stands, and every block is as its reset rule says (R146, R149, R165, R175). -/
theorem bounds_resetBlocks (s : State) (powerOn : Bool) : Bounds s (s.resetBlocks powerOn) where
  places := fun _ => Nat.zero_le _
  staging := fun _ => stagingWithin_nil
  settings := fun _ => factory_inRange
  queue := fun _ => Nat.zero_le _
  input := fun _ => Nat.zero_le _
  enables := fun _ => BitVec.zero_and

theorem bounds_setPins (s : State) (p : Pins) : Bounds s { s with pins := p } :=
  { Bounds.refl s with }

/-- A fixed slot stands through a reset that is no power-on reset (R146). -/
theorem fixedKept_resetBlocks (s : State) : fixedKept s (s.resetBlocks false) := fun i hi => by
  show (guardsAfterReset false s.guards).get i = s.guards.get i
  rw [guardsAfterReset, Vector.get_eq_getElem, Vector.getElem_map, ← Vector.get_eq_getElem, hi]
  rfl

/-- A reset leaves the array as it is, keeps the bounds, and what follows keeps everything. -/
theorem resetBlocks_of_exec {c : Instr} {s t : State} (hc : c = .powerOnReset ∨ c = .resetAsserted ∨ ∃ b, c = .softReset b)
    (h : exec c s = .next t) :
    ∃ u, Bounds s u ∧ u.flash = s.flash ∧ (c ≠ .powerOnReset → fixedKept s u) ∧ Keeps u t := by
  have stands (ht : t = s) : ∃ u, Bounds s u ∧ u.flash = s.flash ∧ (c ≠ .powerOnReset → fixedKept s u) ∧ Keeps u t :=
    ⟨s, .refl s, rfl, fun _ _ _ => rfl, ht ▸ .refl s⟩
  rcases hc with rfl | rfl | ⟨b, rfl⟩
  · unfold exec execPowerOnReset at h
    exact ⟨_, (bounds_setPins s _).trans (bounds_resetBlocks _ true), rfl, fun hn => absurd rfl hn,
      keeps_next h (.refl _)⟩
  · unfold exec execResetAsserted at h
    simp only at h
    split at h
    · exact stands (stands_of_next h)
    · exact ⟨(s.setReset true).resetBlocks false, (bounds_setPins s _).trans (bounds_resetBlocks _ false), rfl,
        fun _ => fixedKept_resetBlocks (s.setReset true), keeps_next h (.refl _)⟩
  · unfold exec execSoftReset at h
    simp only at h
    split at h
    · exact stands (stands_of_next h)
    · split at h
      · exact ⟨s.resetBlocks false, bounds_resetBlocks _ _, rfl, fun _ => fixedKept_resetBlocks _,
          keeps_next h (((keeps_setPort _ _ _).trans (outer_beginMount _ _).keeps).trans (keeps_grant _))⟩
      · exact ⟨s, .refl s, rfl, fun _ _ _ => rfl, keeps_next h (keeps_afterWrite _ _)⟩

/-- The kinds of command, as the claims below tell them apart. -/
theorem command_kinds (c : Instr) :
    (∃ b, c = .faults b) ∨ (c = .powerOnReset ∨ c = .resetAsserted ∨ ∃ b, c = .softReset b) ∨
      ((∀ b, c ≠ .faults b) ∧ c ≠ .powerOnReset ∧ c ≠ .resetAsserted ∧ ∀ b, c ≠ .softReset b) := by
  cases c <;> simp

theorem ArrayEnded.bounds {s u : State} (h : ArrayEnded s u) : Bounds s u := by
  rw [h.rest]
  exact ⟨id, id, id, id, id, id⟩

/-- Every command keeps the bounds. -/
theorem bounds_exec {c : Instr} {s t : State} (h : exec c s = .next t) : Bounds s t := by
  rcases command_kinds c with ⟨b, rfl⟩ | hc | ⟨hf, hp, hr, hs⟩
  · obtain ⟨w, hinput, henable, rfl⟩ := faults_next h
    exact { Bounds.refl s with input := by rw [hinput]; exact id, enables := by rw [henable]; exact id }
  · obtain ⟨u, hb, -, -, hk⟩ := resetBlocks_of_exec hc h
    exact hb.trans hk.toBounds
  · obtain ⟨u, hu, hk⟩ := ended_of_exec hf hp hr hs h
    exact hu.bounds.trans hk.toBounds

/-- An empty queue's tick changes the running time of an erase alone (log 7). -/
theorem tick_cases (s : State) :
    s.tick = s ∨ ∃ e, s.arr.erase = some e ∧ s.tick =
      { s with arr := { s.arr with erase := some { e with time := e.time + 1 } } } := by
  unfold State.tick
  split
  · split
    · exact .inr ⟨_, ‹_›, rfl⟩
    · exact .inl rfl
  · exact .inl rfl

theorem keeps_tick (s : State) : Keeps s s.tick := by
  rcases tick_cases s with h | ⟨e, -, h⟩ <;> rw [h]
  · exact .refl s
  · exact { Keeps.refl s with }

/-- A step ticks, or runs the front command on the queue's rest. -/
theorem step_cases {s t : State} (h : step s = .next t) :
    t = s.tick ∨ ∃ c rest, s.pending = c :: rest ∧ exec c { s with pending := rest } = .next t := by
  unfold step at h
  split at h
  · exact .inl (stands_of_next h)
  · exact .inr ⟨_, _, ‹_›, h⟩

/-- Every step keeps the bounds. -/
theorem bounds_step {s t : State} (h : step s = .next t) : Bounds s t := by
  rcases step_cases h with rfl | ⟨c, rest, -, hexec⟩
  · exact (keeps_tick s).toBounds
  · exact Bounds.trans (t := { s with pending := rest }) { Bounds.refl s with } (bounds_exec hexec)

/-- Settles O5. -/
theorem placesKept : Obligations.PlacesKept := fun _ _ hplaces h => (bounds_step h).places hplaces

/-- Settles O6. -/
theorem stagingLimitsKept : Obligations.StagingLimitsKept := fun _ _ hstaging h => (bounds_step h).staging hstaging

/-- Settles O9. -/
theorem settingsAndBuffersBounded : Obligations.SettingsAndBuffersBounded := by
  intro s t ⟨hsettings, hqueue, hinput, henables⟩ h
  have hb := bounds_step h
  exact ⟨hb.settings hsettings, hb.queue hqueue, hb.input hinput, hb.enables henables⟩

/-- Settles O7: LOAD and the resets other than a power-on keep a fixed slot, and GUARD-SET refuses it. -/
theorem fixedGuardsKept : Obligations.FixedGuardsKept := by
  intro c s t hpower h
  rcases command_kinds c with ⟨b, rfl⟩ | hc | ⟨hf, hp, hr, hs⟩
  · obtain ⟨w, -, -, rfl⟩ := faults_next h
    exact fun _ _ => rfl
  · obtain ⟨u, -, -, hfixed, hk⟩ := resetBlocks_of_exec hc h
    exact fixedKept_trans (hfixed hpower) hk.guards
  · obtain ⟨u, hu, hk⟩ := ended_of_exec hf hp hr hs h
    have hguards : fixedKept s u := fun _ _ => by rw [hu.rest]
    exact fixedKept_trans hguards hk.guards

/-- An indication set before is set after when none is lost. -/
theorem indicated_of_faultsKept {s t : State} (h : faultsKept s t) {i : Indication} (hi : s.indicated i = true) :
    t.indicated i = true := by
  unfold State.indicated at *
  rw [← h, BitVec.getLsbD_and, Bool.and_eq_true] at hi
  exact hi.2

/-- Settles O8: outside a write to FAULTS and the resets, indications are only raised. -/
theorem indicationsSticky : Obligations.IndicationsSticky := by
  intro c s t hf hp hr hs h i hi
  obtain ⟨u, hu, hk⟩ := ended_of_exec hf hp hr hs h
  have hwin : u.win = s.win := by rw [hu.rest]
  exact indicated_of_faultsKept hk.faults (by unfold State.indicated; rw [hwin]; exact hi)

/-! ### The array -/

/-- The end of an operation keeps the array's form, a written line written but in an erased sector, and an undefined line
undefined but where a PROGRAM or an erase has ended. -/
theorem ArrayEnded.wf {s u : State} (h : ArrayEnded s u) (hw : s.flash.wf = true) : u.flash.wf = true := by
  rcases h.flash with e | ⟨x, sec, line, data, v, -, e⟩ | ⟨x, sec, v, -, e⟩
  · rw [e]; exact hw
  · rw [e]
    cases v with
    | passed => exact Flash.endProgram_wf _ _ _ _ hw
    | failed => exact Flash.failProgram_wf _ _ _ hw
  · rw [e]
    cases v with
    | passed => exact Flash.endErase_wf _ _ hw
    | failed => exact Flash.failErase_wf _ _ hw

theorem ArrayEnded.written {s u : State} (h : ArrayEnded s u) {ln : Nat} (hln : ln ∈ s.flash.written)
    (herased : ¬ ∃ x sec, performs s x (.erase sec) ∧ inSector sec ln = true) : ln ∈ u.flash.written := by
  rcases h.flash with e | ⟨x, sec, line, data, v, -, e⟩ | ⟨x, sec, v, hp, e⟩
  · rw [e]; exact hln
  · rw [e]; cases v <;> exact hln
  · rw [e]
    have hout : inSector sec ln = false := Bool.eq_false_iff.mpr fun hin => herased ⟨x, sec, hp, hin⟩
    cases v with
    | passed => exact (Flash.endErase_marks s.flash sec ln).1.mpr ⟨hln, hout⟩
    | failed => exact (Flash.failErase_marks s.flash sec).written ln hln

theorem ArrayEnded.undef {s u : State} (h : ArrayEnded s u) {ln : Nat} (hln : undefKind s.flash.undef ln ≠ none)
    (herased : ¬ ∃ x sec, performs s x (.erase sec) ∧ inSector sec ln = true)
    (hprogrammed : ¬ ∃ x sec line data, performs s x (.program sec line data) ∧ ln = lineNo sec line) :
    undefKind u.flash.undef ln ≠ none := by
  rcases h.flash with e | ⟨x, sec, line, data, v, hp, e⟩ | ⟨x, sec, v, hp, e⟩
  · rw [e]; exact hln
  · rw [e]
    cases v with
    | passed =>
      exact (Flash.endProgram_undef s.flash sec line data ln).mpr
        ⟨hln, fun he => hprogrammed ⟨x, sec, line, data, hp, he⟩⟩
    | failed => exact (Flash.failProgram_marks s.flash sec line).undef ln hln
  · rw [e]
    have hout : inSector sec ln = false := Bool.eq_false_iff.mpr fun hin => herased ⟨x, sec, hp, hin⟩
    cases v with
    | passed => exact (Flash.endErase_marks s.flash sec ln).2.mpr ⟨hln, hout⟩
    | failed => exact (Flash.failErase_marks s.flash sec).undef ln hln

/-- Every command: an operation may end in it, and the rest keeps the array's form and marks. -/
theorem flash_of_exec {c : Instr} {s t : State} (h : exec c s = .next t) :
    ∃ u, ArrayEnded s u ∧ (u.flash.wf = true → t.flash.wf = true) ∧ u.flash.MarksKept t.flash := by
  rcases command_kinds c with ⟨b, rfl⟩ | hc | ⟨hf, hp, hr, hs⟩
  · obtain ⟨w, -, -, rfl⟩ := faults_next h
    exact ⟨s, .refl s, id, .refl _⟩
  · obtain ⟨u, -, hflash, -, hk⟩ := resetBlocks_of_exec hc h
    exact ⟨s, .refl s, hflash ▸ hk.wf, hflash ▸ hk.marks⟩
  · obtain ⟨u, hu, hk⟩ := ended_of_exec hf hp hr hs h
    exact ⟨u, hu, hk.wf, hk.marks⟩

/-- Settles O4: what an operation's end does to the array is excepted by the statement, and everything else marks lines
only. -/
theorem flashCanonicalKept : Obligations.FlashCanonicalKept := by
  refine ⟨fun s t hwf h => ?wf, fun s t ln h => ?marks⟩
  case wf =>
    rcases step_cases h with rfl | ⟨c, rest, -, hexec⟩
    · exact (keeps_tick s).wf hwf
    · obtain ⟨u, hu, hkept, -⟩ := flash_of_exec hexec
      exact hkept (hu.wf hwf)
  case marks =>
    rcases step_cases h with rfl | ⟨c, rest, -, hexec⟩
    · have hmarks := (keeps_tick s).marks
      exact ⟨fun hln _ => hmarks.written ln hln, fun hln _ _ => hmarks.undef ln hln⟩
    · obtain ⟨u, hu, -, hmarks⟩ := flash_of_exec hexec
      exact ⟨fun hln he => hmarks.written ln (hu.written hln he), fun hln he hp => hmarks.undef ln (hu.undef hln he hp)⟩

end Sys2Proof.Machine
end

section
/-! SUPPORT. The write bar over every state: a state that no run reaches, in which a PROGRAM begins in a step that finds
and leaves the store READ-ONLY. -/

namespace Sys2Proof.Machine

set_option Elab.async false

/-- READ-ONLY with the open stamp program of a mount in progress and not abandoned, and a line program waiting in slot L;
sector 1 is ERASE-PENDING at the endurance limit, and no sequence number is left. `DirectorySafe.request` excludes it: such
a request belongs to a mount in progress. -/
def readOnlyOpening : State :=
  { State.reset with
    sectors := Vector.ofFn (fun i : SectorIx =>
      if i = 1 then { SectorEntry.reset with eraseCount := Config.enduranceLimit } else SectorEntry.reset)
    lw := { LogWriter.reset with seqCtr := Config.maxSequenceCounter }
    arr := { Sequencer.reset with
      l := some { op := .program 2 5 [], inProgress := false }
      m := some { op := .program 0 1 [], inProgress := true }
      busy := some .m }
    store := { StoreCtl.reset with
      st := .readOnly, mount := none, req := some { purpose := .mountOpen 0 1 1, abandoned := false } }
    pins := { resetLow := false, pfailLow := false, vccInRange := true }
    pending := [.mountOpenStampEnd .passed] }

/-- What the claim asks about after a step: the store state and the request of slot L. -/
def storeAndL : Host.Outcome State Fault Refusal → Option (StoreState × Option Request)
  | .next t => some (t.store.st, t.arr.l)
  | _ => none

/-- The mount ends MOUNTED, slot L is granted as the engine is about to look for work, and the engine's sector is retired
for want of a sequence number, which moves the store back to READ-ONLY. -/
theorem storeAndL_step_readOnlyOpening :
    storeAndL (step readOnlyOpening) = some (.readOnly, some { op := .program 2 5 [], inProgress := true }) := by
  decide +kernel

theorem storeAndL_some {o : Host.Outcome State Fault Refusal} {x : StoreState × Option Request}
    (h : storeAndL o = some x) : ∃ t, o = .next t ∧ t.store.st = x.1 ∧ t.arr.l = x.2 := by
  cases o with
  | next t => exact ⟨t, rfl, congrArg Prod.fst (Option.some.inj h), congrArg Prod.snd (Option.some.inj h)⟩
  | fault f => exact nomatch h
  | refused r => exact nomatch h

/-- Refutes O11: its first part asks nothing of the state before the step, and from `readOnlyOpening` READ-ONLY does not
last through the step but is left and entered again, with a grant between. -/
theorem not_nothingBeginsUnderWriteBar : ¬ Obligations.NothingBeginsUnderWriteBar := by
  rintro ⟨hbegins, -⟩
  obtain ⟨t, hstep, hst, hl⟩ := storeAndL_some storeAndL_step_readOnlyOpening
  have hbefore : readOnlyOpening.arr.l = some { op := .program 2 5 [], inProgress := true } :=
    hbegins readOnlyOpening t .l (.program 2 5 []) hstep (.inr (.inr (.inr ⟨rfl, hst⟩))) rfl hl
  exact absurd hbefore (by decide)

end Sys2Proof.Machine
end

section
/-! SUPPORT. The slots as requests join and leave them, and the happenings that leave the directory, the Transaction
Manager and the Store Controller as they are (`Calm`). -/

namespace Sys2Proof.Machine

set_option Elab.async false

/-! ### Slots -/

theorem askSuspend_slot (a : Sequencer) (x : SlotId) : a.askSuspend.slot x = a.slot x := by
  unfold Sequencer.askSuspend
  split
  · split
    · cases x <;> rfl
    · rfl
  · rfl

/-- A placed request waits in its slot; the others stand (R106). -/
theorem put_slot (a : Sequencer) (x y : SlotId) (op : ArrayOp) :
    (a.put x op).slot y = if y = x then some { op := op, inProgress := false } else a.slot y := by
  have hset := slot_setSlot a x y (some { op := op, inProgress := false })
  cases x with
  | h => exact (askSuspend_slot _ _).trans hset
  | l => exact (askSuspend_slot _ _).trans hset
  | c => exact hset
  | m => exact hset

theorem waitingWrite_of_slot {a b : Sequencer} {x : SlotId} (h : b.slot x = a.slot x) :
    b.waitingWrite x = a.waitingWrite x := by
  unfold Sequencer.waitingWrite
  rw [h]

theorem waitingWrite_of_none {a : Sequencer} {x : SlotId} (h : a.slot x = none) : a.waitingWrite x = false := by
  unfold Sequencer.waitingWrite
  rw [h]

/-! ### Calm happenings -/

/-- A change that leaves the settings, and adds completions at most. -/
structure Tells (s t : State) : Prop where
  settings : t.settings = s.settings
  told : s.cu.completions <+: t.cu.completions

theorem Tells.same {s t : State} (hs : t.settings = s.settings := by rfl)
    (hc : t.cu.completions = s.cu.completions := by rfl) : Tells s t :=
  ⟨hs, hc ▸ List.prefix_rfl⟩

theorem Tells.trans {s t u : State} (h1 : Tells s t) (h2 : Tells t u) : Tells s u :=
  ⟨h2.settings.trans h1.settings, h1.told.trans h2.told⟩

/-- A happening that places requests at most: the directory, the Transaction Manager, the Store Controller, the pins and
the settings stand, completions only join the queue, and once the store has left MOUNTED and the write bar holds nothing
is placed. -/
structure Calm (s t : State) : Prop where
  dir : t.dir = s.dir
  tm : t.tm = s.tm
  store : t.store = s.store
  pins : t.pins = s.pins
  arr : s.store.st ≠ .mounted → s.writeBar.isSome = true → t.arr = s.arr
  tells : Tells s t

/-- The write bar follows the pins and the store state (R112). -/
theorem writeBar_congr {s t : State} (hp : t.pins = s.pins) (hs : t.store = s.store) : t.writeBar = s.writeBar := by
  unfold State.writeBar
  rw [hp, hs]

theorem Calm.same {s t : State} (hd : t.dir = s.dir := by rfl) (ht : t.tm = s.tm := by rfl)
    (hs : t.store = s.store := by rfl) (hp : t.pins = s.pins := by rfl) (ha : t.arr = s.arr := by rfl)
    (hw : Tells s t := by exact .same) : Calm s t :=
  ⟨hd, ht, hs, hp, fun _ _ => ha, hw⟩

theorem Calm.refl (s : State) : Calm s s := .same

theorem Calm.trans {s t u : State} (h1 : Calm s t) (h2 : Calm t u) : Calm s u where
  dir := h2.dir.trans h1.dir
  tm := h2.tm.trans h1.tm
  store := h2.store.trans h1.store
  pins := h2.pins.trans h1.pins
  arr := fun hm hb => (h2.arr (by rw [h1.store]; exact hm) (by rw [writeBar_congr h1.pins h1.store]; exact hb)).trans
    (h1.arr hm hb)
  tells := h1.tells.trans h2.tells

/-- A PROGRAM or ERASE is placed only where the write bar lets it (R112). -/
theorem calm_place (s : State) (x : SlotId) {op : ArrayOp} (h : op.isWrite = true) : Calm s (s.place x op).1 := by
  rcases place_cases s x op with ⟨st, -, -, e⟩ | e
  · rw [e]
    exact .refl s
  · cases hbar : s.writeBar with
    | some st =>
      unfold State.place
      rw [h, hbar]
      exact .refl s
    | none =>
      rw [e]
      exact ⟨rfl, rfl, rfl, rfl, fun _ hb => (nomatch hbar ▸ hb), .same⟩

/-- A READ of the walk is placed in MOUNTED alone (R88, R100). -/
theorem calm_placeRead (s : State) (x : SlotId) (op : ArrayOp) (h : s.store.st = .mounted) : Calm s (s.place x op).1 := by
  rcases place_cases s x op with ⟨st, -, -, e⟩ | e <;> rw [e]
  · exact .refl s
  · exact ⟨rfl, rfl, rfl, rfl, fun hn => absurd h hn, .same⟩

theorem calm_finish (s : State) (code : Byte) (st : Status) (a b c : Nat) : Calm s (s.finish code st a b c) := by
  unfold State.finish
  split
  · exact .same
  · exact .same (hw := ⟨rfl, List.prefix_append _ _⟩)

theorem calm_takeSeq (s : State) (k : Nat) : Calm s (s.takeSeq k).2 := by
  rcases takeSeq_cases s k with ⟨-, h⟩ | ⟨-, h⟩ <;> rw [h] <;> exact .same

theorem calm_raiseIf (s : State) (b : Bool) (i : Indication) : Calm s (s.raiseIf b i) := by
  unfold State.raiseIf
  split <;> exact .same

/-! ### The Log Writer -/

theorem calm_refuseCurrent (s : State) (st : Status) : Calm s (s.refuseCurrent st).1 := by
  unfold State.refuseCurrent
  split <;> exact .same

theorem calm_requestLine (s : State) (cur : InProgress) (loc : Loc) : Calm s (s.requestLine cur loc).1 := by
  unfold State.requestLine
  simp only
  generalize hs : ({ s.modSector loc.sector SectorEntry.addDead with lw := _ } : State) = s1
  have h1 : Calm s s1 := by subst hs; exact .same
  have h2 := calm_place s1 .l
    (op := .program loc.sector (loc.line + cur.done) (cur.record.lineData cur.done)) rfl
  split
  · rename_i s2 e
    rw [e] at h2
    exact h1.trans h2
  · rename_i s2 st e
    rw [e] at h2
    exact (h1.trans h2).trans (calm_refuseCurrent _ _)

theorem calm_placeRecord (s : State) (cur : InProgress) (p : AppendPoint) : Calm s (s.placeRecord cur p).1 := by
  unfold State.placeRecord
  simp only
  split
  · exact Calm.trans (t := s.modSector p.sector _) .same (calm_requestLine _ _ _)
  · exact calm_requestLine _ _ _

theorem calm_beginOpening (s : State) (cur : Option InProgress) (early : Bool) :
    Calm s (s.beginOpening cur early).1 := by
  unfold State.beginOpening
  split
  · split <;> exact .same
  · rename_i k hk
    simp only
    generalize hs : ({ s with lw := _ } : State) = s1
    have h1 : Calm s s1 := by subst hs; exact .same
    have h2 := calm_place s1 .l (op := .program k 1 (openStampLine s.lw.actCtr s.lw.seqCtr)) rfl
    split
    · rename_i s2 e
      rw [e] at h2
      exact h1.trans h2
    · rename_i s2 st e
      rw [e] at h2
      exact ((h1.trans h2).trans .same).trans (calm_refuseCurrent _ _)

theorem calm_beginRecord (s : State) (cur : InProgress) : Calm s (s.beginRecord cur).1 := by
  unfold State.beginRecord
  split
  · split
    · exact calm_placeRecord _ _ _
    · exact calm_beginOpening _ _ _
  · exact calm_beginOpening _ _ _

theorem calm_serveStream (s : State) (x : Stream) (r : Record) : Calm s (s.serveStream x r).1 := by
  unfold State.serveStream
  cases x
  · exact Calm.trans .same (calm_beginRecord _ _)
  · exact Calm.trans .same (calm_beginRecord _ _)

theorem calm_serve (s : State) : Calm s s.serve.1 := by
  unfold State.serve
  split
  · split
    · exact .refl s
    · exact calm_serveStream _ _ _
    · exact calm_serveStream _ _ _
    · split <;> exact calm_serveStream _ _ _
  · exact .refl s

theorem calm_offer (s : State) (x : Stream) (r : Record) : Calm s (s.offer x r).1 := by
  unfold State.offer
  split
  · cases x <;> exact .same
  · exact .refl s

theorem calm_linePassed (s : State) (cur : InProgress) (loc : Loc) : Calm s (s.linePassed cur loc).1 := by
  unfold State.linePassed
  simp only
  split
  · exact .same
  · split
    · exact calm_refuseCurrent _ _
    · exact calm_requestLine _ _ _

theorem calm_lineFailed (s : State) (cur : InProgress) : Calm s (s.lineFailed cur).1 := by
  unfold State.lineFailed
  simp only
  refine Calm.trans (t := s.raise .programFault) .same ?_
  split
  · exact calm_refuseCurrent _ _
  · split
    · exact calm_beginOpening _ _ _
    · exact Calm.trans .same (calm_beginOpening _ _ _)

theorem calm_strayEnded (s : State) (v : Verify) : Calm s (s.strayEnded v).1 := calm_raiseIf s _ _

theorem calm_lineEnded (s : State) (v : Verify) : Calm s (s.lineEnded v).1 := by
  unfold State.lineEnded
  split
  · exact calm_strayEnded s v
  · split
    · exact .refl s
    · cases v
      · exact calm_linePassed _ _ _
      · exact calm_lineFailed _ _

theorem calm_afterOpening (s : State) (p : AppendPoint) : Calm s (s.afterOpening p).1 := by
  unfold State.afterOpening
  split
  · exact .refl s
  · split
    · exact calm_placeRecord _ _ _
    · exact calm_refuseCurrent _ _

theorem calm_sealOld (s : State) (early : Bool) : Calm s (s.sealOld early) := by
  unfold State.sealOld
  split
  · exact .refl s
  · simp only
    split
    · split <;> exact .same
    · exact .same

theorem calm_openingEnded (s : State) (v : Verify) : Calm s (s.openingEnded v).1 := by
  unfold State.openingEnded
  split
  · exact calm_strayEnded s v
  · rename_i o ho
    cases v
    · exact ((calm_sealOld s o.early).trans .same).trans (calm_afterOpening _ _)
    · simp only
      refine Calm.trans (t := s.raise .programFault) .same ?_
      split
      · exact Calm.trans .same (calm_beginOpening _ _ _)
      · exact Calm.trans .same (calm_refuseCurrent _ _)

theorem calm_writerRefused (s : State) (st : Status) : Calm s (s.writerRefused st).1 :=
  Calm.trans .same (calm_refuseCurrent _ _)

theorem calm_refuseReady (s : State) (st : Status) : Calm s (s.refuseReady st).1 := .same

/-! ### The Reclaim Engine -/

theorem calm_giveUp (s : State) (i : SectorIx) (n : Nat) : Calm s (s.giveUp i n) := by
  unfold State.giveUp
  simp only
  split <;> exact .same

theorem calm_retireDone (s : State) (i : SectorIx) (loc : Option Loc) (refusal : Option Status) :
    Calm s (s.retireDone i loc refusal).1 := by
  unfold State.retireDone
  simp only
  cases loc <;> exact .same

theorem calm_askRetiring (s : State) :
    Calm s (if s.reclaimRoom Config.passMargin then s.reserveReclaim Config.passMargin else s) := by
  split <;> exact .same

theorem calm_beginRetiring (s : State) (i : SectorIx) (cause : RetireCause) :
    Calm s (s.beginRetiring i cause).1 := by
  unfold State.beginRetiring
  simp only
  generalize hs : ({ s with eng := _ } : State) = s1
  have h1 : Calm s s1 := by subst hs; exact .same
  have h3 := (h1.trans (calm_askRetiring s1)).trans (calm_takeSeq _ 1)
  split
  · rename_i s3 e
    rw [e] at h3
    exact h3.trans (t := s3) (calm_retireDone s3 i none (some .readOnly))
  · rename_i n s3 e
    rw [e] at h3
    exact h3.trans (calm_offer _ _ _)

theorem calm_beginErasing (s : State) (i : SectorIx) : Calm s (s.beginErasing i).1 := by
  unfold State.beginErasing
  have h := Calm.trans (s := s) (t := (s.setEngine .erasing).modSector i SectorEntry.toErasing) .same
    (calm_place ((s.setEngine .erasing).modSector i SectorEntry.toErasing) .c (op := .erase i) rfl)
  split
  · rename_i s1 e
    rw [e] at h
    exact h
  · rename_i s1 st e
    rw [e] at h
    exact h.trans .same

theorem calm_eraseOrRetire (s : State) (i : SectorIx) : Calm s (s.eraseOrRetire i).1 := by
  unfold State.eraseOrRetire
  split
  · exact calm_beginRetiring _ _ _
  · exact calm_beginErasing _ _

theorem calm_eraseEnded (s : State) (i : SectorIx) (v : Verify) : Calm s (s.eraseEnded i v).1 := by
  unfold State.eraseEnded
  cases v with
  | passed =>
    simp only
    have h := Calm.trans (s := s) (t := (s.modSector i SectorEntry.raiseCount).setEngine .stamping) .same
      (calm_place ((s.modSector i SectorEntry.raiseCount).setEngine .stamping) .c
        (op := .program i 0
          (eraseStampLine s.store.generation ((s.modSector i SectorEntry.raiseCount).sector i).eraseCount)) rfl)
    split
    · rename_i s2 e
      rw [e] at h
      exact h
    · rename_i s2 st e
      rw [e] at h
      exact h.trans .same
  | failed =>
    exact Calm.trans (t := (s.modSector i SectorEntry.toErasePending).raise .eraseFault) .same
      (calm_beginRetiring _ _ _)

theorem calm_stampEnded (s : State) (i : SectorIx) (v : Verify) : Calm s (s.stampEnded i v).1 := by
  cases v <;> exact .same

theorem haltStatus_none_iff {s : State} : s.haltStatus = none ↔ s.store.st = .mounted := by
  unfold State.haltStatus
  cases s.store.st <;> simp

theorem calm_walk (s : State) (v : SectorIx) : Calm s (s.walk v).1 := by
  unfold State.walk
  split
  · exact .refl s
  · rename_i hhalt
    split
    · exact calm_placeRead _ _ _ (haltStatus_none_iff.mp hhalt)
    · have h := calm_takeSeq s 1
      split
      · rename_i s1 e
        rw [e] at h
        exact h
      · rename_i n s1 e
        rw [e] at h
        exact (h.trans .same).trans (calm_offer _ _ _)

theorem calm_reclaimRefused (s : State) (st : Status) : Calm s (s.reclaimRefused st).1 := by
  unfold State.reclaimRefused
  split
  · exact .refl s
  · split
    · exact .refl s
    · exact .refl s
    · exact .refl s
    · exact calm_retireDone _ _ _ _
    · exact .refl s

theorem calm_engineRefused (s : State) (st : Status) : Calm s (s.engineRefused st).1 := by
  unfold State.engineRefused
  split
  · exact .refl s
  · split
    · exact .same
    · exact .same
    · exact .refl s

theorem calm_startUnit (s : State) (k : UnitKind) (i : SectorIx) (o : Owner) : Calm s (s.startUnit k i o).1 := by
  unfold State.startUnit
  cases k with
  | pendingErase => exact Calm.trans .same (calm_eraseOrRetire _ _)
  | resumedPass => exact Calm.trans .same (calm_walk _ _)
  | pass =>
    simp only
    generalize hs : ({ s.reserveReclaim (s.passAmount i) with eng := _ } : State) = s1
    have h1 : Calm s s1 := by subst hs; exact .same
    have h := h1.trans (calm_takeSeq s1 1)
    split
    · rename_i s2 e
      rw [e] at h
      exact h
    · rename_i n s2 e
      rw [e] at h
      exact h.trans (calm_offer _ _ _)

theorem calm_setStalled (s : State) : Calm s s.setStalled :=
  (calm_raiseIf s _ _).trans .same

theorem calm_stallAtEnd (s : State) (v : SectorIx) (b : Bool) : Calm s (s.stallAtEnd v b) := by
  unfold State.stallAtEnd
  split
  · exact .same
  · split
    · exact calm_setStalled s
    · exact .refl s

theorem calm_afterUnit (s : State) : Calm s s.afterUnit.1 := by
  unfold State.afterUnit
  split
  · split
    · exact .same
    · exact .refl s
  · exact .refl s

theorem calm_setEng (s : State) (e : Engine) : Calm s { s with eng := e } := .same

theorem calm_endUnit (s : State) (st : Status) (b : Bool) : Calm s (s.endUnit st b).1 := by
  unfold State.endUnit
  split
  · exact .refl s
  · rename_i v hv
    refine Calm.trans ?_ (Calm.trans (calm_setEng _ _) (calm_afterUnit _))
    refine Calm.trans (t := (s.stallAtEnd v b).releaseReclaim) ((calm_stallAtEnd s v b).trans .same) ?_
    cases s.eng.owner with
    | automatic => exact .refl _
    | command tag => exact calm_finish _ _ _ _ _ _

/-! ### Refusals of the slots -/

theorem calm_unErase (s : State) (x : SlotId) : Calm s (s.unErase x) := by
  unfold State.unErase
  split
  · exact .same
  · exact .refl s

theorem slot_setAging (a : Sequencer) (n : Nat) (x : SlotId) : Sequencer.slot { a with aging := n } x = a.slot x := by
  cases x <;> rfl

theorem slot_setErase (a : Sequencer) (e : Option EraseRun) (b : Option SlotId) (x : SlotId) :
    Sequencer.slot { a with erase := e, busy := b } x = a.slot x := by
  cases x <;> rfl

theorem dropWaiting_slot (s : State) (x y : SlotId) :
    (s.dropWaiting x).arr.slot y = if y = x ∧ s.arr.waitingWrite x = true then none else s.arr.slot y := by
  have harr : (s.unErase x).arr = s.arr := by
    unfold State.unErase
    split <;> rfl
  unfold State.dropWaiting
  split
  · rename_i h
    rw [slot_setAging, slot_setSlot, harr]
    simp only [h, and_true]
  · rename_i h
    rw [if_neg (fun e => h e.2)]

/-- A slot whose waiting PROGRAM or ERASE is refused holds none that waits. -/
theorem waitingWrite_dropWaiting (s : State) (x : SlotId) : (s.dropWaiting x).arr.waitingWrite x = false := by
  cases h : s.arr.waitingWrite x with
  | true => exact waitingWrite_of_none (by rw [dropWaiting_slot, if_pos ⟨rfl, h⟩])
  | false => exact (waitingWrite_of_slot (by rw [dropWaiting_slot, if_neg (by simp [h])])).trans h

/-- What a slot's refusal leaves unchanged. -/
theorem dropWaiting_rest (s : State) (x : SlotId) :
    (s.dropWaiting x).dir = s.dir ∧ (s.dropWaiting x).tm = s.tm ∧ (s.dropWaiting x).store = s.store ∧
      (s.dropWaiting x).pins = s.pins := by
  have h : Calm s (s.unErase x) := calm_unErase s x
  unfold State.dropWaiting
  split
  · exact ⟨h.dir, h.tm, h.store, h.pins⟩
  · exact ⟨rfl, rfl, rfl, rfl⟩

theorem refuseWaiting_rest (s : State) (st : Status) :
    (s.refuseWaiting st).1.dir = s.dir ∧ (s.refuseWaiting st).1.tm = s.tm ∧ (s.refuseWaiting st).1.store = s.store ∧
      (s.refuseWaiting st).1.pins = s.pins := by
  obtain ⟨hd1, ht1, hs1, hp1⟩ := dropWaiting_rest s .l
  obtain ⟨hd2, ht2, hs2, hp2⟩ := dropWaiting_rest (s.dropWaiting .l) .c
  obtain ⟨hd3, ht3, hs3, hp3⟩ := dropWaiting_rest ((s.dropWaiting .l).dropWaiting .c) .m
  exact ⟨hd3.trans (hd2.trans hd1), ht3.trans (ht2.trans ht1), hs3.trans (hs2.trans hs1), hp3.trans (hp2.trans hp1)⟩

theorem tells_dropWaiting (s : State) (x : SlotId) : Tells s (s.dropWaiting x) := by
  unfold State.dropWaiting
  split
  · exact (calm_unErase s x).tells.trans .same
  · exact .same

theorem tells_refuseWaiting (s : State) (st : Status) : Tells s (s.refuseWaiting st).1 :=
  ((tells_dropWaiting s .l).trans (tells_dropWaiting _ .c)).trans (tells_dropWaiting _ .m)

/-- No slot but H holds a PROGRAM or ERASE that waits. -/
def nothingWaits (s : State) : Prop :=
  s.arr.waitingWrite .l = false ∧ s.arr.waitingWrite .c = false ∧ s.arr.waitingWrite .m = false

theorem waitingWrite_dropWaiting_other (s : State) {x y : SlotId} (h : y ≠ x) :
    (s.dropWaiting x).arr.waitingWrite y = s.arr.waitingWrite y :=
  waitingWrite_of_slot (by rw [dropWaiting_slot, if_neg (fun e => h e.1)])

theorem nothingWaits_refuseWaiting (s : State) (st : Status) : nothingWaits (s.refuseWaiting st).1 := by
  unfold State.refuseWaiting
  refine ⟨?_, ?_, waitingWrite_dropWaiting _ _⟩
  · rw [waitingWrite_dropWaiting_other _ (by decide), waitingWrite_dropWaiting_other _ (by decide)]
    exact waitingWrite_dropWaiting _ _
  · rw [waitingWrite_dropWaiting_other _ (by decide)]
    exact waitingWrite_dropWaiting _ _

end Sys2Proof.Machine
end

section
/-! SUPPORT. The lists of the Key Directory, and the bounds that its changes keep while a commit or a settings write is
in flight. -/

namespace Sys2Proof.Machine

set_option Elab.async false

/-! ### Lookups and changes -/

theorem dirFind_some {d : List DirEntry} {k : Key} {e : DirEntry} (h : dirFind d k = some e) : e ∈ d ∧ e.key = k := by
  induction d with
  | nil => exact nomatch h
  | cons x rest ih =>
    rw [dirFind] at h
    split at h
    · cases h
      exact ⟨List.mem_cons_self .., ‹_›⟩
    · exact ⟨List.mem_cons_of_mem _ (ih h).1, (ih h).2⟩

theorem dirFind_none_iff {d : List DirEntry} {k : Key} : dirFind d k = none ↔ ∀ e ∈ d, e.key ≠ k := by
  induction d with
  | nil => simp [dirFind]
  | cons x rest ih =>
    rw [dirFind]
    split
    · rename_i hx
      simp [hx]
    · rename_i hx
      simp [ih, hx]

theorem mem_dirPut {d : List DirEntry} {e x : DirEntry} (h : x ∈ dirPut d e) : x = e ∨ x ∈ d := by
  induction d with
  | nil => exact .inl (List.mem_singleton.mp h)
  | cons y rest ih =>
    rw [dirPut] at h
    split at h
    · rcases List.mem_cons.mp h with h | h
      · exact .inr (h ▸ List.mem_cons_self ..)
      · exact (ih h).imp id (List.mem_cons_of_mem _)
    · split at h
      · rcases List.mem_cons.mp h with h | h
        · exact .inl h
        · exact .inr (List.mem_cons_of_mem _ h)
      · exact List.mem_cons.mp h

/-- A key's entry is found where it was put; every other lookup stands (R44). -/
theorem dirFind_dirPut (d : List DirEntry) (e : DirEntry) (k : Key) :
    dirFind (dirPut d e) k = if e.key = k then some e else dirFind d k := by
  induction d with
  | nil => simp [dirPut, dirFind]
  | cons x rest ih =>
    rw [dirPut]
    split
    · rename_i hlt
      simp only [dirFind, ih]
      have hne : x.key ≠ e.key := by bv_omega
      by_cases hk : e.key = k
      · simp [hk, hk ▸ hne]
      · simp [hk]
    · split
      · rename_i hx
        simp only [dirFind, hx]
        split <;> rfl
      · simp only [dirFind]

theorem dirSorted_cons {x : DirEntry} {d : List DirEntry} :
    dirSorted (x :: d) = true ↔ (∀ e ∈ d, x.key < e.key) ∧ dirSorted d = true := by
  rw [dirSorted, Bool.and_eq_true, List.all_eq_true]
  simp only [decide_eq_true_eq]

theorem dirSorted_dirPut {d : List DirEntry} (e : DirEntry) (h : dirSorted d = true) : dirSorted (dirPut d e) = true := by
  induction d with
  | nil => rfl
  | cons x rest ih =>
    obtain ⟨habove, hrest⟩ := dirSorted_cons.mp h
    rw [dirPut]
    split
    · rename_i hlt
      refine dirSorted_cons.mpr ⟨fun y hy => ?_, ih hrest⟩
      rcases mem_dirPut hy with rfl | hy
      · exact hlt
      · exact habove y hy
    · split
      · rename_i heq
        exact dirSorted_cons.mpr ⟨fun y hy => heq ▸ habove y hy, hrest⟩
      · rename_i hnlt hne
        have hlt : e.key < x.key := by bv_omega
        refine dirSorted_cons.mpr ⟨fun y hy => ?_, h⟩
        rcases List.mem_cons.mp hy with rfl | hy
        · exact hlt
        · exact BitVec.lt_trans hlt (habove y hy)

/-- A new key's entry takes a place, a known key's takes that of the entry it replaces (R44). -/
theorem length_dirPut {d : List DirEntry} (e : DirEntry) (h : dirSorted d = true) :
    (dirPut d e).length = d.length + (if dirFind d e.key = none then 1 else 0) := by
  induction d with
  | nil => rfl
  | cons x rest ih =>
    obtain ⟨habove, hrest⟩ := dirSorted_cons.mp h
    rw [dirPut, dirFind]
    split
    · rename_i hlt
      have hne : x.key ≠ e.key := by bv_omega
      rw [if_neg hne, List.length_cons, List.length_cons, ih hrest]
      omega
    · split
      · simp
      · rename_i hnlt hne
        have hnew : dirFind rest e.key = none := dirFind_none_iff.mpr fun y hy hkey => by
          have := habove y hy
          bv_omega
        rw [if_pos hnew]
        rfl

theorem mem_dirRemove {d : List DirEntry} {k : Key} {x : DirEntry} : x ∈ dirRemove d k ↔ x ∈ d ∧ x.key ≠ k := by
  rw [dirRemove, List.mem_filter, decide_eq_true_eq]

theorem dirFind_dirRemove (d : List DirEntry) (k k' : Key) :
    dirFind (dirRemove d k) k' = if k' = k then none else dirFind d k' := by
  induction d with
  | nil => simp [dirRemove, dirFind]
  | cons x rest ih =>
    rw [dirRemove] at ih
    rw [dirRemove, List.filter_cons]
    by_cases hx : x.key = k
    · simp only [hx, ne_eq, not_true, decide_false, Bool.false_eq_true, if_false, ih, dirFind]
      by_cases hk : k' = k
      · simp [hk]
      · simp [hk, Ne.symm hk]
    · simp only [hx, ne_eq, not_false_eq_true, decide_true, if_true, dirFind, ih]
      by_cases hk : x.key = k'
      · rw [if_pos hk, if_pos hk, if_neg (fun h => hx (hk.trans h))]
      · rw [if_neg hk, if_neg hk]

theorem dirSorted_filter {d : List DirEntry} (p : DirEntry → Bool) (h : dirSorted d = true) :
    dirSorted (d.filter p) = true := by
  induction d with
  | nil => rfl
  | cons x rest ih =>
    obtain ⟨habove, hrest⟩ := dirSorted_cons.mp h
    rw [List.filter_cons]
    split
    · exact dirSorted_cons.mpr ⟨fun y hy => habove y (List.mem_of_mem_filter hy), ih hrest⟩
    · exact ih hrest

/-- A known key's entry gives up one place. -/
theorem length_dirRemove {d : List DirEntry} {k : Key} {e : DirEntry} (h : dirSorted d = true)
    (hf : dirFind d k = some e) : (dirRemove d k).length + 1 = d.length := by
  induction d with
  | nil => exact nomatch hf
  | cons x rest ih =>
    obtain ⟨habove, hrest⟩ := dirSorted_cons.mp h
    rw [dirFind] at hf
    rw [dirRemove, List.filter_cons]
    by_cases hx : x.key = k
    · have hall : rest.filter (fun e => decide (e.key ≠ k)) = rest := by
        rw [List.filter_eq_self]
        intro y hy
        have := habove y hy
        rw [decide_eq_true_eq]
        bv_omega
      rw [hall, if_neg (by simp [hx]), List.length_cons]
    · rw [if_neg hx] at hf
      have := ih hrest hf
      simp only [hx, ne_eq, not_false_eq_true, decide_true, if_true, List.length_cons]
      exact congrArg (· + 1) this

/-! ### The bounds with changes in flight -/

/-- Whether a key has no entry in a directory (R48). -/
def newIn (d : List DirEntry) (k : Key) : Bool := (dirFind d k).isNone

theorem newIn_dirPut (d : List DirEntry) (e : DirEntry) (k : Key) :
    newIn (dirPut d e) k = (newIn d k && decide (k ≠ e.key)) := by
  rw [newIn, dirFind_dirPut]
  by_cases h : e.key = k
  · simp [h]
  · simp [h, Ne.symm h, newIn]

theorem newIn_dirRemove (d : List DirEntry) (k k' : Key) :
    newIn (dirRemove d k) k' = (newIn d k' || decide (k' = k)) := by
  rw [newIn, dirFind_dirRemove]
  by_cases h : k' = k
  · simp [h]
  · simp [h, newIn]

/-- Operations of a list whose keys are new (R65, R70). -/
def newOps (d : List DirEntry) (l : List Staged) : Nat := (l.filter (fun o => newIn d o.key)).length

theorem newOps_congr {d d' : List DirEntry} {l : List Staged} (h : ∀ o ∈ l, newIn d' o.key = newIn d o.key) :
    newOps d' l = newOps d l := by
  rw [newOps, newOps, List.filter_congr h]

theorem newOps_cons (d : List DirEntry) (o : Staged) (l : List Staged) :
    newOps d (o :: l) = (if newIn d o.key then 1 else 0) + newOps d l := by
  rw [newOps, List.filter_cons]
  split
  · rw [List.length_cons, newOps, Nat.add_comm]
  · rw [newOps, Nat.zero_add]

/-- With no two operations for one key, a removed entry makes at most one of them new. -/
theorem newOps_dirRemove (d : List DirEntry) (k : Key) {l : List Staged} (h : (l.map Staged.key).Nodup) :
    newOps (dirRemove d k) l ≤ newOps d l + 1 := by
  induction l with
  | nil => exact Nat.zero_le _
  | cons o rest ih =>
    rw [List.map_cons, List.nodup_cons] at h
    obtain ⟨hnot, hrest⟩ := h
    rw [newOps_cons, newOps_cons, newIn_dirRemove]
    by_cases hk : o.key = k
    · have hsame : newOps (dirRemove d k) rest = newOps d rest := by
        refine newOps_congr fun x hx => ?_
        have hne : x.key ≠ k := fun e => hnot (List.mem_map.mpr ⟨x, hx, e.trans hk.symm⟩)
        simp [newIn_dirRemove, hne]
      rw [hsame, hk]
      split <;> split <;> omega
    · have := ih hrest
      simp only [hk, decide_false, Bool.or_false]
      omega

/-- What keeps the directory within its bounds: the fields of `DirectorySafe` that speak of the directory and of the
changes in flight, with the limits of the staging list. -/
structure DirTm (s : State) : Prop where
  staging : stagingWithin s.tm.staging
  sorted : dirSorted s.dir = true
  keys : ∀ e ∈ s.dir, directoryKey e.key
  size : s.dir.length ≤ Config.directoryCapacity
  commit : s.tm.commit ≠ none → s.dir.length + newOps s.dir s.tm.staging ≤ Config.directoryCapacity
  settings : s.tm.settings ≠ none → newIn s.dir Config.settingsKey = true →
    s.dir.length + 1 ≤ Config.directoryCapacity
  one : s.tm.commit = none ∨ s.tm.settings = none

/-- The bounds rest on the directory, the list, and which changes are in flight. -/
theorem DirTm.congr {s t : State} (h : DirTm s) (hd : t.dir = s.dir) (hl : t.tm.staging = s.tm.staging)
    (hc : t.tm.commit ≠ none → s.tm.commit ≠ none) (hw : t.tm.settings ≠ none → s.tm.settings ≠ none) : DirTm t where
  staging := hl ▸ h.staging
  sorted := hd ▸ h.sorted
  keys := hd ▸ h.keys
  size := hd ▸ h.size
  commit := fun hn => by rw [hd, hl]; exact h.commit (hc hn)
  settings := fun hn => by rw [hd]; exact h.settings (hw hn)
  one := by
    rcases h.one with e | e
    · exact .inl (Classical.byContradiction fun hn => hc hn e)
    · exact .inr (Classical.byContradiction fun hn => hw hn e)

/-- Without a change in flight nothing but R44 and the limits of the list is asked. -/
theorem DirTm.of_noWrite {s : State} (hw : noWrite s) (hl : stagingWithin s.tm.staging) (hs : dirSorted s.dir = true)
    (hk : ∀ e ∈ s.dir, directoryKey e.key) (hn : s.dir.length ≤ Config.directoryCapacity) : DirTm s where
  staging := hl
  sorted := hs
  keys := hk
  size := hn
  commit := fun h => absurd hw.1 h
  settings := fun h => absurd hw.2 h
  one := .inl hw.1

/-- An entry in the place of its key's entry changes no bound. -/
theorem DirTm.replaced {s t : State} (h : DirTm s) {e : DirEntry} (hknown : newIn s.dir e.key = false)
    (hd : t.dir = dirPut s.dir e) (ht : t.tm = s.tm) : DirTm t := by
  obtain ⟨old, hold⟩ : ∃ old, dirFind s.dir e.key = some old :=
    Option.isSome_iff_exists.mp (by simpa [newIn] using hknown)
  have hkey : directoryKey e.key := (dirFind_some hold).2 ▸ h.keys _ (dirFind_some hold).1
  have hlen : t.dir.length = s.dir.length := by
    rw [hd, length_dirPut e h.sorted, hold]
    rfl
  have hnew (k : Key) : newIn t.dir k = newIn s.dir k := by
    rw [hd, newIn_dirPut]
    by_cases hk : k = e.key
    · rw [hk, hknown]; rfl
    · simp [hk]
  refine ⟨ht ▸ h.staging, hd ▸ dirSorted_dirPut e h.sorted, ?_, hlen ▸ h.size, ?_, ?_, ht ▸ h.one⟩
  · rw [hd]
    intro x hx
    rcases mem_dirPut hx with rfl | hx
    · exact hkey
    · exact h.keys x hx
  · rw [ht, hlen, newOps_congr fun o _ => hnew o.key]
    exact h.commit
  · rw [ht, hlen, hnew]
    exact h.settings

/-- A removed entry frees the place that its key may need again. -/
theorem DirTm.removed {s t : State} (h : DirTm s) {e : DirEntry} {k : Key} (hf : dirFind s.dir k = some e)
    (hd : t.dir = dirRemove s.dir k) (ht : t.tm = s.tm) : DirTm t := by
  have hlen : t.dir.length + 1 = s.dir.length := by rw [hd]; exact length_dirRemove h.sorted hf
  have hsize := h.size
  refine ⟨ht ▸ h.staging, hd ▸ dirSorted_filter _ h.sorted, ?_, by omega, ?_, ?_, ht ▸ h.one⟩
  · rw [hd]
    exact fun x hx => h.keys x (mem_dirRemove.mp hx).1
  · intro hn
    have hroom := h.commit (ht ▸ hn)
    have hnew := newOps_dirRemove s.dir k h.staging.2.2.1
    rw [← hd] at hnew
    rw [ht]
    omega
  · intro _ _
    omega

theorem userKey_directoryKey {k : Key} (h : isUserKey k = true) : directoryKey k :=
  .inl (of_decide_eq_true h)

/-- A record is taken for a key: its entry is put, and the Transaction Manager stands (R54). -/
theorem takeRecord_dir (s : State) (k : Key) (p : Bool) (l : Loc) (n len seq : Nat) :
    ∃ e, e.key = k ∧ (s.takeRecord k p l n len seq).dir = dirPut s.dir e ∧ (s.takeRecord k p l n len seq).tm = s.tm := by
  unfold State.takeRecord State.takeUp
  cases s.entry k with
  | none => exact ⟨_, rfl, rfl, rfl⟩
  | some old =>
    have h := calm_giveUp s old.loc.sector old.lines
    refine ⟨⟨k, p, l, n, len, seq, !p && s.newerSector old.loc.sector l.sector⟩, rfl, ?_, h.tm⟩
    exact congrArg (fun d => dirPut d _) h.dir

/-- The directory takes as many new keys as the operations have: what is left of the room is what the rest needs (R54,
R70). -/
theorem takeCommit_dir (s : State) (ops : List Staged) (ls : List Loc) (seq : Nat)
    (hs : dirSorted s.dir = true) (hk : ∀ e ∈ s.dir, directoryKey e.key) (hops : ∀ o ∈ ops, isUserKey o.key = true)
    (hnd : (ops.map Staged.key).Nodup) (hroom : s.dir.length + newOps s.dir ops ≤ Config.directoryCapacity) :
    let t := s.takeCommit ops ls seq
    dirSorted t.dir = true ∧ (∀ e ∈ t.dir, directoryKey e.key) ∧ t.dir.length ≤ Config.directoryCapacity ∧
      t.tm = s.tm := by
  induction ops generalizing s ls seq with
  | nil =>
    unfold State.takeCommit
    exact ⟨hs, hk, by omega, rfl⟩
  | cons op rest ih =>
    cases ls with
    | nil =>
      unfold State.takeCommit
      exact ⟨hs, hk, by omega, rfl⟩
    | cons l ls =>
      obtain ⟨e, hkey, hdir, htm⟩ := takeRecord_dir s op.key op.value.isSome l op.lines op.bytes seq
      rw [List.map_cons, List.nodup_cons] at hnd
      obtain ⟨hnot, hrest⟩ := hnd
      have hother : newOps (dirPut s.dir e) rest = newOps s.dir rest := by
        refine newOps_congr fun x hx => ?_
        have hne : x.key ≠ e.key := fun h => hnot (List.mem_map.mpr ⟨x, hx, h.trans hkey⟩)
        simp [newIn_dirPut, hne]
      have hlen : (dirPut s.dir e).length + newOps (dirPut s.dir e) rest ≤ Config.directoryCapacity := by
        rw [newOps_cons] at hroom
        rw [hother, length_dirPut e hs, hkey]
        simp only [newIn, Option.isNone_iff_eq_none] at hroom
        omega
      have hkeys : ∀ x ∈ dirPut s.dir e, directoryKey x.key := fun x hx => by
        rcases mem_dirPut hx with rfl | hx
        · exact hkey ▸ userKey_directoryKey (hops op (List.mem_cons_self ..))
        · exact hk x hx
      have := ih (s.takeRecord op.key op.value.isSome l op.lines op.bytes seq) ls (seq + 1)
        (hdir ▸ dirSorted_dirPut e hs) (hdir ▸ hkeys) (fun o ho => hops o (List.mem_cons_of_mem _ ho)) hrest (hdir ▸ hlen)
      rw [htm] at this
      exact this

end Sys2Proof.Machine
end

section
/-! SUPPORT. What every internal happening keeps of the directory and of the requests. -/

namespace Sys2Proof.Machine

set_option Elab.async false

/-- A happening keeps the directory's bounds, starts no write of its own, leaves the Store Controller but for the move to
READ-ONLY, places nothing once the store has left MOUNTED and the write bar holds, and touches neither the settings nor
the completions that wait. -/
structure Sound (s t : State) : Prop where
  dir : DirTm s → DirTm t
  writes : noWrite s → noWrite t
  store : t.store = s.store ∨
    t.store.st = .readOnly ∧ t.store.req = s.store.req ∧ t.store.scan = s.store.scan ∧ s.store.st = .mounted
  pins : t.pins = s.pins
  arr : s.store.st ≠ .mounted → s.writeBar.isSome = true → t.arr = s.arr
  tells : Tells s t

theorem Calm.sound {s t : State} (h : Calm s t) : Sound s t where
  dir := fun hd => hd.congr h.dir (congrArg _ h.tm) (fun hn => h.tm ▸ hn) (fun hn => h.tm ▸ hn)
  writes := fun hn => by unfold noWrite; rw [h.tm]; exact hn
  store := .inl h.store
  pins := h.pins
  arr := h.arr
  tells := h.tells

theorem Sound.refl (s : State) : Sound s s := (Calm.refl s).sound

theorem Sound.trans {s t u : State} (h1 : Sound s t) (h2 : Sound t u) : Sound s u where
  dir := h2.dir ∘ h1.dir
  writes := h2.writes ∘ h1.writes
  store := by
    rcases h1.store with e1 | ⟨e1, er, es, em⟩
    · rcases h2.store with e2 | h2
      · exact .inl (e2.trans e1)
      · rw [e1] at h2
        exact .inr h2
    · rcases h2.store with e2 | ⟨-, -, -, e2⟩
      · exact .inr ⟨e2 ▸ e1, e2 ▸ er, e2 ▸ es, em⟩
      · rw [e1] at e2
        exact nomatch e2
  pins := h2.pins.trans h1.pins
  arr := fun hm hb => by
    have hstore : t.store = s.store := h1.store.resolve_right fun h => hm h.2.2.2
    rw [h2.arr (by rw [hstore]; exact hm) (by rw [writeBar_congr h1.pins hstore]; exact hb), h1.arr hm hb]
  tells := h1.tells.trans h2.tells

/-- A change of the Transaction Manager that starts no write and keeps the list. -/
theorem Sound.ofTm {s t : State} (hl : t.tm.staging = s.tm.staging)
    (hc : t.tm.commit ≠ none → s.tm.commit ≠ none) (hw : t.tm.settings ≠ none → s.tm.settings ≠ none)
    (hd : t.dir = s.dir := by rfl) (hs : t.store = s.store := by rfl) (hp : t.pins = s.pins := by rfl)
    (ha : t.arr = s.arr := by rfl) (htells : Tells s t := by exact .same) : Sound s t where
  dir := fun h => h.congr hd hl hc hw
  writes := fun h => ⟨Classical.byContradiction fun hn => hc hn h.1, Classical.byContradiction fun hn => hw hn h.2⟩
  store := .inl hs
  pins := hp
  arr := fun _ _ => ha
  tells := htells

/-- A change of the directory alone. -/
theorem Sound.ofDir {s t : State} (hdir : DirTm s → DirTm t) (ht : t.tm = s.tm) (hs : t.store = s.store)
    (hp : t.pins = s.pins) (ha : t.arr = s.arr) (htells : Tells s t := by exact .same) : Sound s t where
  dir := hdir
  writes := fun h => by unfold noWrite; rw [ht]; exact h
  store := .inl hs
  pins := hp
  arr := fun _ _ => ha
  tells := htells

/-! ### The directory -/

theorem giveUp_arr (s : State) (i : SectorIx) (n : Nat) : (s.giveUp i n).arr = s.arr := by
  unfold State.giveUp
  simp only
  split <;> rfl

theorem sound_relocate (s : State) (k : Key) (seq : Nat) (x : Loc) : Sound s (s.relocate k seq x) := by
  unfold State.relocate
  cases he : s.entry k with
  | none => exact .refl s
  | some e =>
    have hkey : e.key = k := (dirFind_some he).2
    have hknown (e' : DirEntry) (h : e'.key = e.key) : newIn s.dir e'.key = false := by
      rw [h, hkey]
      exact (congrArg Option.isNone he : newIn s.dir k = _)
    simp only
    split
    · have hg := calm_giveUp s e.loc.sector e.lines
      have harr := giveUp_arr s e.loc.sector e.lines
      exact .ofDir (fun h => h.replaced (hknown { e with loc := x, stale := _ } rfl)
        (congrArg (fun d => dirPut d _) hg.dir) hg.tm) hg.tm hg.store hg.pins harr (hg.tells.trans .same)
    · split
      · exact .ofDir (fun h => h.replaced (hknown { e with stale := true } rfl) rfl rfl) rfl rfl rfl rfl
      · exact .refl s

theorem sound_removeEntry (s : State) {e : DirEntry} {k : Key} (h : s.entry k = some e) : Sound s (s.removeEntry e) := by
  have hg := calm_giveUp s e.loc.sector e.lines
  have hkey : e.key = k := (dirFind_some h).2
  exact .ofDir (fun hd => hd.removed (k := k) h
    (show dirRemove (s.giveUp e.loc.sector e.lines).dir e.key = _ by rw [hg.dir, hkey]) hg.tm) hg.tm hg.store hg.pins
      (giveUp_arr _ _ _) (hg.tells.trans .same)

theorem sound_dropTombstone (s : State) (k : Key) (seq : Nat) : Sound s (s.dropTombstone k seq) := by
  unfold State.dropTombstone
  split
  · split
    · exact sound_removeEntry s ‹_›
    · exact .refl s
  · exact .refl s

theorem sound_loseRecord (s : State) (k : Key) (seq : Nat) : Sound s (s.loseRecord k seq) := by
  unfold State.loseRecord
  split
  · split
    · exact sound_removeEntry s ‹_›
    · exact .refl s
  · exact .refl s

/-! ### The Transaction Manager -/

theorem sound_finish (s : State) (code : Byte) (st : Status) (a b c : Nat) : Sound s (s.finish code st a b c) :=
  (calm_finish _ _ _ _ _ _).sound

theorem sound_commitFail (s : State) (st : Status) : Sound s (s.commitFail st) := by
  unfold State.commitFail
  split
  · exact .refl s
  · refine Sound.trans ?_ (sound_finish _ _ _ _ _ _)
    exact .ofTm rfl (fun h => absurd rfl h) id

theorem sound_settingsFail (s : State) (st : Status) : Sound s (s.settingsFail st) := by
  unfold State.settingsFail
  split
  · exact .refl s
  · refine Sound.trans ?_ (sound_finish _ _ _ _ _ _)
    exact .ofTm rfl id (fun h => absurd rfl h)

theorem takeRecord_arr (s : State) (k : Key) (p : Bool) (l : Loc) (n len seq : Nat) :
    (s.takeRecord k p l n len seq).arr = s.arr := by
  unfold State.takeRecord
  cases s.entry k with
  | none => rfl
  | some old => exact giveUp_arr s old.loc.sector old.lines

theorem takeRecord_store (s : State) (k : Key) (p : Bool) (l : Loc) (n len seq : Nat) :
    (s.takeRecord k p l n len seq).store = s.store := by
  unfold State.takeRecord
  cases s.entry k with
  | none => rfl
  | some old => exact (calm_giveUp s old.loc.sector old.lines).store

theorem tells_takeRecord (s : State) (k : Key) (p : Bool) (l : Loc) (n len seq : Nat) :
    Tells s (s.takeRecord k p l n len seq) := by
  unfold State.takeRecord
  cases s.entry k with
  | none => exact .same
  | some old => exact (calm_giveUp s old.loc.sector old.lines).tells.trans .same

theorem tells_takeCommit (s : State) (ops : List Staged) (ls : List Loc) (seq : Nat) :
    Tells s (s.takeCommit ops ls seq) := by
  induction ops generalizing s ls seq with
  | nil => unfold State.takeCommit; exact .same
  | cons op rest ih =>
    cases ls with
    | nil => unfold State.takeCommit; exact .same
    | cons l ls => exact (tells_takeRecord _ _ _ _ _ _ _).trans (ih _ _ _)

theorem takeCommit_arr (s : State) (ops : List Staged) (ls : List Loc) (seq : Nat) :
    (s.takeCommit ops ls seq).arr = s.arr := by
  induction ops generalizing s ls seq with
  | nil => unfold State.takeCommit; rfl
  | cons op rest ih =>
    cases ls with
    | nil => unfold State.takeCommit; rfl
    | cons l ls => exact (ih _ _ _).trans (takeRecord_arr _ _ _ _ _ _ _)

theorem takeCommit_store (s : State) (ops : List Staged) (ls : List Loc) (seq : Nat) :
    (s.takeCommit ops ls seq).store = s.store := by
  induction ops generalizing s ls seq with
  | nil => unfold State.takeCommit; rfl
  | cons op rest ih =>
    cases ls with
    | nil => unfold State.takeCommit; rfl
    | cons l ls => exact (ih _ _ _).trans (takeRecord_store _ _ _ _ _ _ _)

theorem takeCommit_tm (s : State) (ops : List Staged) (ls : List Loc) (seq : Nat) :
    (s.takeCommit ops ls seq).tm = s.tm := by
  induction ops generalizing s ls seq with
  | nil => unfold State.takeCommit; rfl
  | cons op rest ih =>
    cases ls with
    | nil => unfold State.takeCommit; rfl
    | cons l ls =>
      obtain ⟨-, -, -, htm⟩ := takeRecord_dir s op.key op.value.isSome l op.lines op.bytes seq
      exact (ih _ _ _).trans htm

/-- A commit in flight completes: its keys had their places, and no settings write is in flight (R54, R70). -/
theorem sound_commitComplete {s : State} (hcommit : s.tm.commit ≠ none) (f : CommitFlight) :
    Sound s (s.commitComplete f) := by
  unfold State.commitComplete
  simp only
  refine Sound.trans ?_ (sound_finish _ _ _ _ _ _)
  have htm := takeCommit_tm s s.tm.staging f.written f.first
  refine
    { dir := fun h => ?_
      writes := fun h => absurd h.1 hcommit
      store := .inl (takeCommit_store _ _ _ _)
      pins := (inner_takeCommit _ _ _ _).pins
      arr := fun _ _ => takeCommit_arr _ _ _ _
      tells := (tells_takeCommit _ _ _ _).trans .same }
  obtain ⟨hlen, hbytes, hnd, hops⟩ := h.staging
  obtain ⟨hs, hk, hn, -⟩ :=
    takeCommit_dir s s.tm.staging f.written f.first h.sorted h.keys (fun o ho => (hops o ho).1) hnd (h.commit hcommit)
  have hsettings : s.tm.settings = none := h.one.resolve_left hcommit
  refine .of_noWrite ⟨rfl, ?_⟩ stagingWithin_nil hs hk hn
  show (s.takeCommit s.tm.staging f.written f.first).tm.settings = none
  rw [htm]
  exact hsettings

/-- A settings write in flight completes: a new settings key had its place (R55, R168). -/
theorem sound_settingsComplete {s : State} (hcommit : s.tm.commit = none) (hwrite : s.tm.settings ≠ none)
    (f : SettingsFlight) (l : Loc) : Sound s (s.settingsComplete f l) := by
  unfold State.settingsComplete
  simp only
  refine Sound.trans ?_ (sound_finish _ _ _ _ _ _)
  generalize linesFor f.payload.length = n
  generalize f.payload.length = len
  obtain ⟨e, hkey, hdir, htm⟩ := takeRecord_dir s Config.settingsKey true l n len f.seq
  have hstore := takeRecord_store s Config.settingsKey true l n len f.seq
  have harr := takeRecord_arr s Config.settingsKey true l n len f.seq
  have hpins := (inner_takeRecord s Config.settingsKey true l n len f.seq).pins
  have htells := tells_takeRecord s Config.settingsKey true l n len f.seq
  generalize s.takeRecord Config.settingsKey true l n len f.seq = u at hdir htm hstore harr hpins htells ⊢
  refine
    { dir := fun h => ?_
      writes := fun h => absurd h.2 hwrite
      store := .inl hstore
      pins := hpins
      arr := fun _ _ => harr
      tells := htells.trans .same }
  have hlen : u.dir.length ≤ Config.directoryCapacity := by
    have hroom := h.settings hwrite
    have hsize := h.size
    simp only [newIn, Option.isNone_iff_eq_none] at hroom
    rw [hdir, length_dirPut e h.sorted, hkey]
    split
    · exact hroom ‹_›
    · exact hsize
  have hlist : stagingWithin u.tm.staging := htm ▸ h.staging
  refine .of_noWrite ⟨(congrArg TxnManager.commit htm).trans hcommit, rfl⟩ hlist
    ((congrArg dirSorted hdir).trans (dirSorted_dirPut e h.sorted)) (fun x hx => ?_) hlen
  have hx : x ∈ dirPut s.dir e := hdir ▸ hx
  rcases mem_dirPut hx with rfl | hx
  · exact .inr hkey
  · exact h.keys x hx

theorem sound_setCommit {s : State} (h : s.tm.commit ≠ none) (f : Option CommitFlight) : Sound s (s.setCommit f) :=
  .ofTm rfl (fun _ => h) id

theorem sound_commitWritten (s : State) (l : Loc) : Sound s (s.commitWritten l).1 := by
  unfold State.commitWritten
  split
  · rename_i f hf
    have hcommit : s.tm.commit ≠ none := by rw [hf]; exact nofun
    simp only
    split
    · exact (sound_setCommit hcommit _).trans (sound_commitComplete (Option.some_ne_none _) _)
    · exact sound_setCommit hcommit _
  · rename_i hcommit
    split
    · rename_i f hf
      exact sound_settingsComplete hcommit (by rw [hf]; exact nofun) _ _
    · exact .refl s

theorem sound_commitRefused (s : State) (st : Status) : Sound s (s.commitRefused st).1 := by
  unfold State.commitRefused
  split
  · exact sound_commitFail _ _
  · exact sound_settingsFail _ _

theorem sound_offer (s : State) (x : Stream) (r : Record) : Sound s (s.offer x r).1 := (calm_offer _ _ _).sound

theorem sound_offerCommit {s : State} (h : s.tm.commit ≠ none) (f : CommitFlight) : Sound s (s.offerCommit f).1 :=
  (sound_setCommit h _).trans (sound_offer _ _ _)

theorem sound_failSettingsWaiter (s : State) (st : Status) :
    Sound s (match s.tm.settings with
      | some f => if f.phase = .waitingSpace then s.settingsFail st else s
      | none => s) := by
  split
  · split
    · exact sound_settingsFail _ _
    · exact .refl _
  · exact .refl _

theorem sound_failWaiter (s : State) (st : Status) : Sound s (s.failWaiter st) := by
  unfold State.failWaiter
  refine Sound.trans ?_ (sound_failSettingsWaiter _ st)
  split
  · split
    · exact sound_commitFail _ _
    · exact .refl s
  · exact .refl s

theorem sound_notGranted (s : State) : Sound s s.notGranted.1 := by
  unfold State.notGranted
  split
  · exact sound_failWaiter _ _
  · exact .refl s

/-- The reservation and the sequence block of a write leave all that matters here. -/
theorem calm_reserved (s : State) (n k : Nat) : Calm s ((s.reserveCommit n).takeSeq k).2 :=
  Calm.trans (t := s.reserveCommit n) .same (calm_takeSeq _ _)

theorem sound_commitGranted {s : State} (h : s.tm.commit ≠ none) (f : CommitFlight) : Sound s (s.commitGranted f).1 := by
  unfold State.commitGranted
  have hr := calm_reserved s f.amount (recordsOf f.n)
  split
  · rename_i s1 e
    rw [e] at hr
    exact hr.sound
  · rename_i first s1 e
    rw [e] at hr
    have hcommit : s1.tm.commit ≠ none := by rw [hr.tm]; exact h
    split
    · exact hr.sound.trans (sound_offerCommit hcommit _)
    · exact (hr.trans .same).sound.trans
        (sound_offerCommit (s := { s1 with lw := { s1.lw with txnCtr := nextTxn s1.lw.txnCtr } }) hcommit _)

theorem sound_settingsGranted {s : State} (h : s.tm.settings ≠ none) (f : SettingsFlight) :
    Sound s (s.settingsGranted f).1 := by
  unfold State.settingsGranted
  have hr := calm_reserved s settingsAmount 1
  split
  · rename_i s1 e
    rw [e] at hr
    exact hr.sound
  · rename_i seq s1 e
    rw [e] at hr
    have hwrite : s1.tm.settings ≠ none := by rw [hr.tm]; exact h
    refine (hr.sound.trans ?_).trans (sound_offer _ _ _)
    exact .ofTm rfl id (fun _ => hwrite)

theorem sound_requestSpace (s : State) : Sound s s.requestSpace.1 := by
  unfold State.requestSpace
  split
  · rename_i f hf
    split
    · split
      · exact sound_commitGranted (by rw [hf]; exact nofun) _
      · exact sound_notGranted _
    · exact .refl s
  · split
    · rename_i f hf
      split
      · split
        · exact sound_settingsGranted (by rw [hf]; exact nofun) _
        · exact sound_notGranted _
      · exact .refl s
    · exact .refl s

/-! ### The Reclaim Engine -/

theorem sound_walkRecord (s : State) (l : Loc) (r : Record) : Sound s (s.walkRecord l r).1 := by
  unfold State.walkRecord
  split
  · exact sound_offer _ _ _
  · split
    · exact (sound_dropTombstone s _ _).trans (Calm.trans .same (calm_walk _ _)).sound
    · exact (Calm.trans .same (calm_walk _ _)).sound

theorem calm_dropRetireLoc (s : State) (l : Loc) (named : SectorIx) :
    Calm s (if (s.sector named).retireLoc = some l then
        (s.modSector named (fun e => { e with retireLoc := none })).modSector l.sector (SectorEntry.giveLines 1)
      else s) := by
  split <;> exact .same

theorem sound_walkLost (s : State) (l : Loc) : Sound s (s.walkLost l).1 := by
  unfold State.walkLost
  split
  · exact (sound_loseRecord s _ _).trans (Calm.trans .same (calm_walk _ _)).sound
  · rename_i named h
    exact (calm_dropRetireLoc s l named).sound.trans (Calm.trans .same (calm_walk _ _)).sound
  · exact (Calm.trans .same (calm_walk _ _)).sound

theorem sound_walkRead (s : State) (v : SectorIx) (rr : ReadResult) : Sound s (s.walkRead v rr).1 := by
  unfold State.walkRead
  simp only
  split
  · exact (Calm.trans .same (calm_walk _ _)).sound
  · split
    · exact sound_walkRecord _ _ _
    · split
      · exact (Calm.trans .same (calm_walk _ _)).sound
      · exact sound_walkLost _ _

theorem sound_walkReadEnds (s : State) (v : SectorIx) (rr : ReadResult) : Sound s (s.walkReadEnds v rr).1 := by
  unfold State.walkReadEnds
  split
  · exact sound_walkRead _ _ _
  · exact .refl s

theorem calm_advance (s : State) (p : Nat) : Calm s (s.advance p) := .same

theorem sound_copyWritten (s : State) (v : SectorIx) (r : Record) (x : Loc) : Sound s (s.copyWritten v r x).1 := by
  unfold State.copyWritten
  simp only
  generalize hs : ({ s with eng := _ } : State) = s1
  have h1 : Calm s s1 := by subst hs; exact .same
  refine (h1.sound.trans ?_).trans ((calm_advance _ _).trans (calm_walk _ _)).sound
  split
  · exact sound_relocate _ _ _ _
  · exact sound_relocate _ _ _ _
  · split
    · exact Calm.sound .same
    · exact .refl _
  · exact .refl _

theorem sound_reclaimWritten (s : State) (r : Record) (x : Loc) : Sound s (s.reclaimWritten r x).1 := by
  unfold State.reclaimWritten
  split
  · exact .refl s
  · split
    · exact (Calm.trans .same (calm_walk _ _)).sound
    · exact sound_copyWritten _ _ _ _
    · simp only
      split
      · exact Calm.sound .same
      · exact (Calm.trans .same (calm_eraseOrRetire _ _)).sound
    · exact (calm_retireDone _ _ _ _).sound
    · exact .refl s

theorem sound_noUnit (s : State) : Sound s s.noUnit := by
  unfold State.noUnit
  have h : Calm s (if s.automaticReason || s.waitingReason then s.setStalled else s) := by
    split
    · exact calm_setStalled s
    · exact .refl s
  simp only
  split
  · exact h.sound.trans (sound_failWaiter _ _)
  · exact h.sound

theorem sound_lookForWork (s : State) : Sound s s.lookForWork.1 := by
  rcases lookForWork_cases s with ⟨k, i, -, h⟩ | ⟨-, h⟩ | h <;> rw [h]
  · exact (calm_startUnit _ _ _ _).sound
  · exact sound_noUnit _
  · exact .refl s

/-! ### The cascade -/

theorem sound_slotRefused (s : State) (x : SlotId) (st : Status) : Sound s (s.slotRefused x st).1 := by
  cases x
  · exact .refl s
  · exact (calm_writerRefused _ _).sound
  · exact (calm_engineRefused _ _).sound
  · exact .refl s

/-- The move from MOUNTED to READ-ONLY refuses every PROGRAM and ERASE that waits (R114, R119). -/
theorem sound_leaveForReadOnly (s : State) (cause : Cause) : Sound s (s.leaveForReadOnly cause).1 := by
  unfold State.leaveForReadOnly
  split
  · rename_i hm
    simp only
    generalize hs : State.holdStaging _ = s1
    have hdir : DirTm s → DirTm s1 := by subst hs; exact fun h => h.congr rfl rfl id id
    have hwrites : noWrite s → noWrite s1 := by subst hs; exact id
    have hstore : s1.store.st = .readOnly ∧ s1.store.req = s.store.req ∧ s1.store.scan = s.store.scan := by
      subst hs; exact ⟨rfl, rfl, rfl⟩
    have hpins : s1.pins = s.pins := by subst hs; rfl
    have htells : Tells s s1 := by subst hs; exact .same
    obtain ⟨hd, ht, hst, hp⟩ := refuseWaiting_rest s1 .readOnly
    have hsound := (calm_refuseReady (s1.refuseWaiting .readOnly).1 .readOnly).sound.trans (sound_failWaiter _ .readOnly)
    obtain ⟨hro, hreq, hscan⟩ := hstore
    have hend := (hsound.store.resolve_right fun h => nomatch (hst ▸ hro).symm.trans h.2.2.2).trans hst
    exact
      { dir := fun h => hsound.dir ((hdir h).congr hd (congrArg _ ht) (fun hn => ht ▸ hn) (fun hn => ht ▸ hn))
        writes := fun h => hsound.writes (by unfold noWrite; rw [ht]; exact hwrites h)
        store := .inr ⟨hend ▸ hro, hend ▸ hreq, hend ▸ hscan, hm⟩
        pins := hsound.pins.trans (hp.trans hpins)
        arr := fun hn => absurd hm hn
        tells := htells.trans ((tells_refuseWaiting s1 .readOnly).trans hsound.tells) }
  · exact .refl s

/-- Every happening that makes no grant. -/
theorem sound_handle_of_not_apart (s : State) {g : Signal} (hg : g.isApart = false) : Sound s (s.handle g).1 := by
  cases g with
  | slotRefused x st => exact sound_slotRefused _ _ _
  | written x r l =>
    cases x
    · exact sound_commitWritten _ _
    · exact sound_reclaimWritten _ _ _
  | refused x st =>
    cases x
    · exact sound_commitRefused _ _
    · exact (calm_reclaimRefused _ _).sound
  | serve => exact (calm_serve _).sound
  | request => exact nomatch hg
  | unitEnd st b => exact (calm_endUnit _ _ _).sound
  | leaveMounted c => exact sound_leaveForReadOnly _ _
  | look => exact nomatch hg

end Sys2Proof.Machine
end

section
/-! SUPPORT. The directory along a step: the cascade, the mount, the format and PFAIL# keep the bounds of R44 and what
they rest on. -/

namespace Sys2Proof.Machine

set_option Elab.async false

/-! ### The cascade -/

/-- What the happenings of a step, the grants between them included, keep of the directory. -/
structure Steady (s t : State) : Prop where
  dir : DirTm s → DirTm t
  writes : noWrite s → noWrite t
  store : t.store = s.store ∨
    t.store.st = .readOnly ∧ t.store.req = s.store.req ∧ t.store.scan = s.store.scan ∧ s.store.st = .mounted

theorem Sound.steady {s t : State} (h : Sound s t) : Steady s t := ⟨h.dir, h.writes, h.store⟩

theorem Steady.refl (s : State) : Steady s s := (Sound.refl s).steady

theorem Steady.trans {s t u : State} (h1 : Steady s t) (h2 : Steady t u) : Steady s u where
  dir := h2.dir ∘ h1.dir
  writes := h2.writes ∘ h1.writes
  store := by
    rcases h1.store with e1 | ⟨e1, er, es, em⟩
    · rcases h2.store with e2 | h2
      · exact .inl (e2.trans e1)
      · rw [e1] at h2
        exact .inr h2
    · rcases h2.store with e2 | ⟨-, -, -, e2⟩
      · exact .inr ⟨e2 ▸ e1, e2 ▸ er, e2 ▸ es, em⟩
      · rw [e1] at e2
        exact nomatch e2

theorem steady_grant (s : State) : Steady s s.grant := by
  rw [(granted s).rest]
  exact ⟨fun h => h.congr rfl rfl id id, id, .inl rfl⟩

theorem steady_handle (s : State) (g : Signal) : Steady s (s.handle g).1 := by
  cases h : g.isApart with
  | false => exact (sound_handle_of_not_apart s h).steady
  | true =>
    cases g with
    | request => exact (steady_grant s).trans (sound_requestSpace _).steady
    | look => exact (steady_grant s).trans (sound_lookForWork _).steady
    | _ => exact nomatch h

theorem steady_drain (n : Nat) (gs : List Signal) (s t : State) (h : drain n gs s = some t) : Steady s t := by
  induction n generalizing gs s with
  | zero =>
    cases gs with
    | nil => exact (Option.some.inj h) ▸ .refl s
    | cons g gs => exact nomatch h
  | succ n ih =>
    cases gs with
    | nil => exact (Option.some.inj h) ▸ .refl s
    | cons g gs => exact (steady_handle s g).trans (ih _ _ h)

theorem steady_settle {a : Answer} {t : State} (h : settle a = some t) : Steady a.1 t := steady_drain _ _ _ _ h

theorem steady_conclude {a : Answer} {t : State} (h : conclude a = .next t) : Steady a.1 t := by
  unfold conclude at h
  split at h
  · rename_i u hu
    obtain ⟨v, hv, hd⟩ := Option.bind_eq_some_iff.mp hu
    exact stands_of_next h ▸ ((steady_settle hv).trans (steady_drain _ _ _ _ hd)).trans (steady_grant u)
  · exact nomatch h

/-! ### The invariant without the hold in reset -/

/-- `DirectorySafe` but for the part held in reset, with the limits of the staging list. -/
structure DirInv (s : State) : Prop extends DirTm s where
  mounting : s.store.st = .mounting → noWrite s
  request : ∀ q, s.store.req = some q → q.abandoned = false → q.purpose.ofMount = true → s.store.st = .mounting
  scanned : ∀ r ∈ s.store.scan.recs, r.kind = .value ∨ r.kind = .tombstone → directoryKey r.key

theorem DirectorySafe.inv {s : State} (h : DirectorySafe s) (hl : stagingWithin s.tm.staging) : DirInv s :=
  { staging := hl, sorted := h.sorted, keys := h.keys, size := h.size, commit := h.commit, settings := h.settings
    one := h.one, mounting := h.mounting, request := h.request, scanned := h.scanned }

theorem DirInv.safe {s : State} (h : DirInv s) (hheld : s.heldInReset = true →
    s.store.st = .mounting ∧ s.arr = Sequencer.reset ∧ ∀ f, s.win.port ≠ .frame f) : DirectorySafe s :=
  { sorted := h.sorted, keys := h.keys, size := h.size, commit := h.commit, settings := h.settings, one := h.one
    mounting := h.mounting, request := h.request, held := hheld, scanned := h.scanned }

theorem Steady.inv {s t : State} (h : Steady s t) (hs : DirInv s) : DirInv t where
  toDirTm := h.dir hs.toDirTm
  mounting := fun hm => by
    rcases h.store with e | ⟨e, -⟩
    · exact h.writes (hs.mounting (e ▸ hm))
    · rw [e] at hm
      exact nomatch hm
  request := fun q hq ha hp => by
    rcases h.store with e | ⟨-, e, -, em⟩
    · rw [e] at hq ⊢
      exact hs.request q hq ha hp
    · have := hs.request q (e ▸ hq) ha hp
      rw [em] at this
      exact nomatch this
  scanned := by
    rcases h.store with e | ⟨-, -, e, -⟩ <;> rw [e] <;> exact hs.scanned

/-- The invariant with another Store Controller. -/
theorem DirInv.setStore {s t : State} (h : DirInv s) (hm : t.store.st = .mounting → noWrite t)
    (hr : ∀ q, t.store.req = some q → q.abandoned = false → q.purpose.ofMount = true → t.store.st = .mounting)
    (hs : ∀ r ∈ t.store.scan.recs, r.kind = .value ∨ r.kind = .tombstone → directoryKey r.key)
    (hd : t.dir = s.dir := by rfl) (ht : t.tm = s.tm := by rfl) : DirInv t :=
  { toDirTm := h.congr hd (congrArg _ ht) (fun hn => ht ▸ hn) (fun hn => ht ▸ hn)
    mounting := hm, request := hr, scanned := hs }

theorem DirInv.same {s t : State} (h : DirInv s) (hd : t.dir = s.dir := by rfl) (ht : t.tm = s.tm := by rfl)
    (hs : t.store = s.store := by rfl) : DirInv t :=
  Steady.inv ⟨fun h => h.congr hd (congrArg _ ht) (fun hn => ht ▸ hn) (fun hn => ht ▸ hn),
    fun hn => by unfold noWrite; rw [ht]; exact hn, .inl hs⟩ h

theorem DirInv.finish {s : State} (h : DirInv s) (code : Byte) (st : Status) (a b c : Nat) :
    DirInv (s.finish code st a b c) :=
  (calm_finish s code st a b c).sound.steady.inv h

theorem DirInv.raiseIf {s : State} (h : DirInv s) (b : Bool) (i : Indication) : DirInv (s.raiseIf b i) :=
  (calm_raiseIf s b i).sound.steady.inv h

/-- No request of a mount is outstanding that is not abandoned. -/
def noMountRequest (s : State) : Prop :=
  ∀ q, s.store.req = some q → q.abandoned = false → q.purpose.ofMount = false

theorem DirInv.noMountRequest {s : State} (h : DirInv s) (hm : s.store.st ≠ .mounting) : noMountRequest s :=
  fun q hq ha => Bool.eq_false_iff.mpr fun hp => hm (h.request q hq ha hp)

theorem noMountRequest_of_none {s : State} (h : s.store.req = none) : noMountRequest s :=
  fun _ hq => nomatch h.symm.trans hq

theorem DirInv.placeM {s : State} (h : DirInv s) {p : MPurpose} (hp : p.ofMount = true → s.store.st = .mounting)
    (op : ArrayOp) : DirInv (s.placeM p op) := by
  unfold State.placeM
  split
  · exact h
  · rcases place_cases s .m op with ⟨st, -, -, e⟩ | e <;> rw [e]
    · exact h
    · refine h.setStore h.mounting (fun _ hq _ hq' => ?_) h.scanned
      cases hq
      exact hp hq'

/-! ### The ends of a mount -/

/-- A mount in progress whose request has ended. -/
structure MountRuns (s : State) : Prop extends DirInv s where
  st : s.store.st = .mounting
  req : s.store.req = none

theorem DirInv.mountEnds {s : State} (h : DirInv s) (hreq : Sys2Proof.Machine.noMountRequest s) {st : StoreState}
    (hst : st ≠ .mounting) (result : MountResult) (status : Status) (b c : Nat) :
    DirInv (s.mountEnds st result status b c) := by
  unfold State.mountEnds
  simp only
  generalize hs : ({ s with store := _ } : State) = s1
  have h1 : DirInv s1 := by
    subst hs
    exact h.setStore (fun e => absurd e hst) (fun q hq ha hp => nomatch (hreq q hq ha).symm.trans hp)
      (fun r hr => absurd hr List.not_mem_nil)
  split
  · exact h1.finish _ _ _ _ _
  · exact h1

theorem MountRuns.mountDone {s : State} (h : MountRuns s) : DirInv s.mountDone := by
  unfold State.mountDone
  simp only
  have hreq : (s.raiseIf s.store.scan.repair .mountRepaired).store.req = none :=
    (congrArg StoreCtl.req (calm_raiseIf s _ _).store).trans h.req
  have h1 := h.toDirInv.raiseIf s.store.scan.repair .mountRepaired
  split
  · exact h1.mountEnds (noMountRequest_of_none hreq) (by decide) _ _ _ _
  · exact h1.mountEnds (noMountRequest_of_none hreq) (by decide) _ _ _ _

theorem MountRuns.same {s t : State} (h : MountRuns s) (hd : t.dir = s.dir := by rfl) (ht : t.tm = s.tm := by rfl)
    (hst : t.store.st = s.store.st := by rfl) (hreq : t.store.req = s.store.req := by rfl)
    (hscan : t.store.scan.recs = s.store.scan.recs := by rfl) : MountRuns t :=
  { toDirInv := h.toDirInv.setStore (fun _ => by unfold noWrite; rw [ht]; exact h.mounting h.st)
      (fun q hq => nomatch (hreq.trans h.req).symm.trans hq) (by rw [hscan]; exact h.scanned) hd ht
    st := hst.trans h.st
    req := hreq.trans h.req }

theorem MountRuns.ofCalm {s t : State} (h : MountRuns s) (hc : Calm s t) : MountRuns t :=
  h.same hc.dir hc.tm (by rw [hc.store]) (by rw [hc.store]) (by rw [hc.store])

theorem MountRuns.setScan {s : State} (h : MountRuns s) {c : MountScan} (hc : c.recs = s.store.scan.recs) :
    MountRuns (s.setScan c) :=
  h.same rfl rfl rfl rfl hc

theorem MountRuns.mountOpenNext {s : State} (h : MountRuns s) : DirInv s.mountOpenNext := by
  unfold State.mountOpenNext
  split
  · refine MountRuns.mountDone ?_
    exact h.same
  · refine DirInv.placeM ?_ ?_ _
    · exact h.toDirInv.same
    · exact fun _ => h.st

theorem MountRuns.openPhase {s : State} (h : MountRuns s) : DirInv s.openPhase := by
  have h1 : MountRuns { s with store := { s.store with phase := .open_ } } := h.same
  unfold State.openPhase
  simp only
  split
  · exact h1.mountOpenNext
  · exact h1.mountDone

theorem load_rest (s : State) : s.load.dir = s.dir ∧ s.load.tm = s.tm ∧ s.load.store = s.store := by
  unfold State.load
  simp only
  split
  · split <;> exact ⟨rfl, rfl, rfl⟩
  · exact ⟨rfl, rfl, rfl⟩

/-! ### The directory a mount builds -/

theorem mem_choose {s : State} {l : List ScanRec} {r x : ScanRec} (h : x ∈ s.choose l r) : x = r ∨ x ∈ l := by
  induction l with
  | nil => exact .inl (List.mem_singleton.mp h)
  | cons y rest ih =>
    rw [State.choose] at h
    split at h
    · rcases List.mem_cons.mp h with h | h
      · exact .inr (h ▸ List.mem_cons_self ..)
      · exact (ih h).imp id (List.mem_cons_of_mem _)
    · split at h
      · split at h
        · rcases List.mem_cons.mp h with h | h
          · exact .inl h
          · exact .inr (List.mem_cons_of_mem _ h)
        · exact .inr h
      · exact List.mem_cons.mp h

/-- The records chosen stand in key order, one for each key. -/
theorem pairwise_choose (s : State) {l : List ScanRec} (r : ScanRec) (h : l.Pairwise (fun a b => a.key < b.key)) :
    (s.choose l r).Pairwise (fun a b => a.key < b.key) := by
  induction l with
  | nil => exact List.pairwise_singleton _ _
  | cons y rest ih =>
    obtain ⟨habove, hrest⟩ := List.pairwise_cons.mp h
    rw [State.choose]
    split
    · rename_i hlt
      refine List.pairwise_cons.mpr ⟨fun x hx => ?_, ih hrest⟩
      rcases mem_choose hx with rfl | hx
      · exact hlt
      · exact habove x hx
    · split
      · rename_i heq
        split
        · exact List.pairwise_cons.mpr ⟨fun x hx => heq ▸ habove x hx, hrest⟩
        · exact h
      · rename_i hnlt hne
        have hlt : r.key < y.key := by bv_omega
        refine List.pairwise_cons.mpr ⟨fun x hx => ?_, h⟩
        rcases List.mem_cons.mp hx with rfl | hx
        · exact hlt
        · exact BitVec.lt_trans hlt (habove x hx)

theorem foldl_choose (s : State) (recs l : List ScanRec) (h : l.Pairwise (fun a b => a.key < b.key)) :
    (recs.foldl s.choose l).Pairwise (fun a b => a.key < b.key) ∧
      ∀ x ∈ recs.foldl s.choose l, x ∈ recs ∨ x ∈ l := by
  induction recs generalizing l with
  | nil => exact ⟨h, fun x hx => .inr hx⟩
  | cons r rest ih =>
    obtain ⟨hsorted, hmem⟩ := ih (s.choose l r) (pairwise_choose s r h)
    refine ⟨hsorted, fun x hx => ?_⟩
    rcases hmem x hx with hx | hx
    · exact .inl (List.mem_cons_of_mem _ hx)
    · rcases mem_choose hx with rfl | hx
      · exact .inl (List.mem_cons_self ..)
      · exact .inr hx

theorem dirSorted_iff {d : List DirEntry} : dirSorted d = true ↔ d.Pairwise (fun a b => a.key < b.key) := by
  induction d with
  | nil => simp [dirSorted]
  | cons x rest ih => rw [dirSorted_cons, ih, List.pairwise_cons]

/-- The directory of R59 is in key order, holds entries of the list alone, and has its 1024 entries at most: the settings
key lies above every user key. -/
theorem withinCapacity_bounds {d : List DirEntry} (hs : dirSorted d = true) (hk : ∀ e ∈ d, directoryKey e.key) :
    dirSorted (withinCapacity d) = true ∧ (∀ e ∈ withinCapacity d, e ∈ d) ∧
      (withinCapacity d).length ≤ Config.directoryCapacity := by
  unfold withinCapacity
  split
  · exact ⟨hs, fun _ he => he, ‹_›⟩
  · split
    · rename_i e he
      obtain ⟨hmem, hkey⟩ := dirFind_some he
      have hsub : ∀ x ∈ (d.filter fun x => decide (x.key ≠ Config.settingsKey)).take (Config.directoryCapacity - 1),
          x ∈ d ∧ x.key ≠ Config.settingsKey := fun x hx => by
        have := List.mem_filter.mp (List.mem_of_mem_take hx)
        exact ⟨this.1, of_decide_eq_true this.2⟩
      refine ⟨?_, fun x hx => ?_, ?_⟩
      · rw [dirSorted_iff, List.pairwise_append]
        refine ⟨((dirSorted_iff.mp hs).filter _).sublist (List.take_sublist _ _), List.pairwise_singleton _ _, ?_⟩
        intro x hx y hy
        obtain ⟨hxd, hne⟩ := hsub x hx
        rw [List.mem_singleton.mp hy, hkey]
        rcases hk x hxd with h | h
        · rw [Config.settingsKey]
          bv_omega
        · exact absurd h hne
      · rcases List.mem_append.mp hx with hx | hx
        · exact (hsub x hx).1
        · rw [List.mem_singleton.mp hx]
          exact hmem
      · rw [List.length_append, List.length_take]
        simp only [Config.directoryCapacity, List.length_singleton]
        omega
    · refine ⟨?_, fun x hx => List.mem_of_mem_take hx, ?_⟩
      · rw [dirSorted_iff]
        exact (dirSorted_iff.mp hs).sublist (List.take_sublist _ _)
      · rw [List.length_take]
        exact Nat.min_le_left ..

/-- What RESOLVE leaves committed are VALUE and TOMBSTONE records of the scan (R127). -/
theorem mem_committed {s : State} {r : ScanRec} (h : r ∈ s.resolve.committed) :
    r ∈ s.store.scan.recs ∧ (r.kind = .value ∨ r.kind = .tombstone) := by
  unfold State.resolve at h
  obtain ⟨h, -⟩ := List.mem_filter.mp h
  obtain ⟨h, hdata⟩ := List.mem_filter.mp h
  obtain ⟨h, -⟩ := List.mem_filter.mp h
  obtain ⟨h, -⟩ := List.mem_filter.mp h
  refine ⟨h, ?_⟩
  simpa [ScanRec.isData] using hdata

/-- The directory of BUILD lies within R44's bounds (R128). -/
theorem MountRuns.built {s : State} (h : MountRuns s) : MountRuns (s.build s.resolve) := by
  obtain ⟨hsorted, hmem⟩ := foldl_choose s s.resolve.committed [] List.Pairwise.nil
  have hall : dirSorted ((s.resolve.committed.foldl s.choose []).map (s.entryOf s.resolve.committed)) = true := by
    rw [dirSorted_iff, List.pairwise_map]
    exact hsorted
  have hkeys : ∀ e ∈ (s.resolve.committed.foldl s.choose []).map (s.entryOf s.resolve.committed),
      directoryKey e.key := fun e he => by
    obtain ⟨r, hr, rfl⟩ := List.mem_map.mp he
    obtain ⟨hrec, hkind⟩ := mem_committed ((hmem r hr).resolve_right List.not_mem_nil)
    exact h.scanned r hrec hkind
  obtain ⟨hdir, hsub, hlen⟩ := withinCapacity_bounds hall hkeys
  have hwrites : noWrite s := h.mounting h.st
  exact
    { toDirTm := .of_noWrite hwrites h.staging hdir (fun e he => hkeys e (hsub e he)) hlen
      mounting := fun _ => hwrites
      request := fun q hq => nomatch h.req.symm.trans hq
      scanned := h.scanned
      st := h.st
      req := h.req }

theorem MountRuns.recordsDone {s : State} (h : MountRuns s) : DirInv s.recordsDone := by
  obtain ⟨hd, ht, hst⟩ := load_rest (s.build s.resolve)
  refine MountRuns.openPhase ?_
  exact h.built.same hd ht (by rw [hst]) (by rw [hst]) (by rw [hst])

theorem MountRuns.scanNext {s : State} (h : MountRuns s) : DirInv s.scanNext := by
  unfold State.scanNext
  split
  · exact h.recordsDone
  · simp only
    split
    · exact h.toDirInv.placeM (fun _ => h.st) _
    · split
      · refine MountRuns.recordsDone ?_
        exact h.same
      · refine DirInv.placeM (MountRuns.toDirInv ?_) ?_ _
        · exact h.same
        · exact fun _ => h.st

theorem MountRuns.unformatted {s : State} (h : MountRuns s) : DirInv s.unformatted := by
  unfold State.unformatted
  refine DirInv.mountEnds ?_ ?_ ?_ .unformatted .unformatted 0 0
  case refine_2 => exact noMountRequest_of_none h.req
  case refine_3 => decide
  exact
    { toDirTm := .of_noWrite (h.mounting h.st) h.staging rfl (fun _ he => absurd he List.not_mem_nil) (Nat.zero_le _)
      mounting := h.mounting
      request := h.request
      scanned := h.scanned }

theorem MountRuns.stampsDone {s : State} (h : MountRuns s) : DirInv s.stampsDone := by
  unfold State.stampsDone
  simp only
  split
  · exact h.unformatted
  · refine MountRuns.scanNext (MountRuns.setScan (MountRuns.ofCalm ?_ (calm_raiseIf _ _ _)) ?_)
    · exact h.same
    · rw [(calm_raiseIf _ _ _).store]

theorem MountRuns.stampRead {s : State} (h : MountRuns s) (i : SectorIx) (bs : List Byte) : DirInv (s.stampRead i bs) := by
  have h1 : MountRuns (s.setScan { s.store.scan with stamps := s.store.scan.stamps ++ [judgeStamps bs] }) := h.setScan rfl
  unfold State.stampRead
  simp only
  split
  · exact h1.toDirInv.placeM (fun _ => h.st) _
  · exact h1.stampsDone

theorem validRecordAt_fieldsFit {p : Nat} {rr : ReadResult} {r : Record} (h : validRecordAt p rr = some r) :
    r.fieldsFit = true := by
  unfold validRecordAt at h
  split at h
  · exact nomatch h
  · split at h
    · rename_i hc
      cases h
      simp only [Bool.and_eq_true] at hc
      obtain ⟨⟨⟨⟨⟨⟨-, hfit⟩, -⟩, -⟩, -⟩, -⟩, -⟩ := hc
      exact hfit
    · exact nomatch h

/-- A valid VALUE or TOMBSTONE record carries a key the directory may hold (R6, R9). -/
theorem validRecordAt_key {p : Nat} {rr : ReadResult} {r : Record} (h : validRecordAt p rr = some r)
    (hk : r.kind = .value ∨ r.kind = .tombstone) : directoryKey r.key := by
  have hfit := validRecordAt_fieldsFit h
  unfold Record.fieldsFit at hfit
  rcases hk with hk | hk <;> rw [hk] at hfit <;>
    simp only [Bool.and_eq_true, Bool.or_eq_true, decide_eq_true_eq] at hfit
  · rcases hfit.1.1 with h | h
    · exact userKey_directoryKey h
    · exact .inr h.1
  · exact userKey_directoryKey hfit.1.1

theorem MountRuns.recordRead {s : State} (h : MountRuns s) (i : SectorIx) (rr : ReadResult) :
    DirInv (s.recordRead i rr) := by
  unfold State.recordRead
  simp only
  refine MountRuns.scanNext ?_
  split
  · exact h.setScan rfl
  · split
    · rename_i r hr
      refine
        { toDirInv := h.toDirInv.setStore h.mounting h.request (fun x hx hk => ?_)
          st := h.st
          req := h.req }
      rcases List.mem_append.mp hx with hx | hx
      · exact h.scanned x hx hk
      · rw [List.mem_singleton.mp hx] at hk ⊢
        exact validRecordAt_key hr hk
    · split
      · exact h.setScan rfl
      · exact h.setScan rfl

theorem stampOpened_rest (s : State) (k : SectorIx) (a q : Nat) (v : Verify) : Calm s (s.stampOpened k a q v) := by
  cases v <;> exact .same

theorem MountRuns.mountOpened {s : State} (h : MountRuns s) (k : SectorIx) (a q : Nat) (v : Verify) :
    DirInv (s.mountOpened k a q v) := by
  have hc := stampOpened_rest s k a q v
  have h1 : MountRuns (s.stampOpened k a q v) := h.ofCalm hc
  unfold State.mountOpened
  cases v with
  | passed =>
    refine MountRuns.mountDone ?_
    exact h1.same
  | failed => exact h1.mountOpenNext

theorem DirInv.resumeMount {s : State} (h : DirInv s) : DirInv s.resumeMount := by
  unfold State.resumeMount
  split
  · exact h.placeM (fun _ => ‹_›) _
  · exact h

theorem DirInv.abandonedOpen {s : State} (h : DirInv s) (k : SectorIx) (a q : Nat) (v : Verify) :
    DirInv (s.abandonedOpen k a q v) := by
  unfold State.abandonedOpen
  split
  · exact (stampOpened_rest s k a q v).sound.steady.inv h
  · exact (h.raiseIf _ _).resumeMount

/-! ### Beginning and abort of a mount -/

/-- An abort abandons what slot M still holds, or takes it away (R132). -/
theorem dropM_cases (s : State) :
    s.dropM = { s with store := { s.store with req := s.store.req.map (fun q => { q with abandoned := true }) } } ∨
      s.dropM = { s with store := { s.store with req := none }, arr := { s.arr with m := none } } := by
  unfold State.dropM
  cases s.arr.m with
  | none => exact .inr rfl
  | some r =>
    simp only
    split
    · exact .inl rfl
    · exact .inr rfl

theorem dropM_req {s : State} {q : MRequest} (h : s.dropM.store.req = some q) : q.abandoned = true := by
  rcases dropM_cases s with e | e <;> rw [e] at h
  · obtain ⟨x, -, rfl⟩ := Option.map_eq_some_iff.mp h
    rfl
  · exact nomatch h

theorem dropM_rest (s : State) : s.dropM.dir = s.dir ∧ s.dropM.tm = s.tm ∧ s.dropM.store.st = s.store.st ∧
    s.dropM.store.scan = s.store.scan := by
  rcases dropM_cases s with e | e <;> rw [e] <;> exact ⟨rfl, rfl, rfl, rfl⟩

theorem mountEnds_rest (s : State) (st : StoreState) (result : MountResult) (status : Status) (b c : Nat) :
    (s.mountEnds st result status b c).dir = s.dir ∧ (s.mountEnds st result status b c).tm = s.tm ∧
      (s.mountEnds st result status b c).store.st = st ∧
      (s.mountEnds st result status b c).store.scan = MountScan.empty := by
  unfold State.mountEnds
  simp only
  generalize hs : ({ s with store := _ } : State) = s1
  have h1 : s1.dir = s.dir ∧ s1.tm = s.tm ∧ s1.store.st = st ∧ s1.store.scan = MountScan.empty := by
    subst hs
    exact ⟨rfl, rfl, rfl, rfl⟩
  split
  · have hc := calm_finish s1 codeMount status result.code b c
    rw [hc.dir, hc.tm, hc.store]
    exact h1
  · exact h1

theorem DirTm.mountAborts {s : State} (h : DirTm s) : DirInv s.mountAborts := by
  unfold State.mountAborts
  obtain ⟨hd, ht, hst, hscan⟩ := mountEnds_rest s .powerHold .aborted .powerFail 0 0
  generalize s.mountEnds .powerHold .aborted .powerFail 0 0 = u at hd ht hst hscan ⊢
  obtain ⟨hd', ht', hst', hscan'⟩ := dropM_rest u
  have hne : u.dropM.store.st ≠ .mounting := by
    rw [hst', hst]
    decide
  exact
    { toDirTm := h.congr (hd'.trans hd) (congrArg _ (ht'.trans ht)) (fun hn => ht ▸ ht' ▸ hn) (fun hn => ht ▸ ht' ▸ hn)
      mounting := fun e => absurd e hne
      request := fun q hq ha => nomatch (dropM_req hq).symm.trans ha
      scanned := fun r hr => by
        rw [hscan', hscan] at hr
        exact absurd hr List.not_mem_nil }

theorem beginMount_inv {s : State} (h : noWrite s) (owner : MountOwner) : DirInv (s.beginMount owner) := by
  unfold State.beginMount
  simp only
  generalize hs : ({ s.resetSectors with dir := _, lw := _, eng := _, tm := _, store := _ } : State) = s1
  have hdir : DirTm s1 := by
    subst hs
    exact .of_noWrite h stagingWithin_nil rfl (fun _ he => absurd he List.not_mem_nil) (Nat.zero_le _)
  have hst : s1.store.st = .mounting := by subst hs; rfl
  have hscan : s1.store.scan = MountScan.empty := by subst hs; rfl
  have hwrites : noWrite s1 := by subst hs; exact h
  split
  · exact hdir.mountAborts
  · refine DirInv.placeM ?_ (fun _ => hst) _
    exact { toDirTm := hdir, mounting := fun _ => hwrites, request := fun _ _ _ _ => hst
            scanned := fun r hr => by rw [hscan] at hr; exact absurd hr List.not_mem_nil }

/-! ### Formats -/

theorem DirInv.formatRetired {s : State} (h : DirInv s) (i : SectorIx) (l : Option Loc) : DirInv (s.formatRetired i l) :=
  h.same

theorem retireAll_calm (s : State) (l : List SectorIx) : Calm s (s.retireAll l) := by
  unfold State.retireAll
  induction l generalizing s with
  | nil => exact .refl s
  | cons i rest ih => exact Calm.trans (t := s.formatRetired i none) .same (ih _)

/-- A format that ends has no mount's request before it: it is over, or it never was a mount's. -/
theorem DirInv.formatEnds {s : State} (h : DirInv s) (hreq : Sys2Proof.Machine.noMountRequest s) (f : FormatFlight)
    {st : StoreState} (hst : st ≠ .mounting) (status : Status) : DirInv (s.formatEnds f st status) := by
  unfold State.formatEnds
  refine DirInv.finish ?_ _ _ _ _ _
  exact h.setStore (fun e => absurd e hst) (fun q hq ha hp => nomatch (hreq q hq ha).symm.trans hp) h.scanned

/-- A format whose request has ended. -/
structure FormatRuns (s : State) : Prop extends DirInv s where
  req : s.store.req = none

theorem FormatRuns.same {s t : State} (h : FormatRuns s) (hd : t.dir = s.dir := by rfl) (ht : t.tm = s.tm := by rfl)
    (hst : t.store.st = s.store.st := by rfl) (hreq : t.store.req = s.store.req := by rfl)
    (hscan : t.store.scan = s.store.scan := by rfl) : FormatRuns t :=
  { toDirInv := h.toDirInv.setStore (fun e => by unfold noWrite; rw [ht]; exact h.mounting (hst ▸ e))
      (fun q hq => nomatch (hreq.trans h.req).symm.trans hq) (by rw [hscan]; exact h.scanned) hd ht
    req := hreq.trans h.req }

theorem FormatRuns.ofCalm {s t : State} (h : FormatRuns s) (hc : Calm s t) : FormatRuns t :=
  h.same hc.dir hc.tm (by rw [hc.store]) (by rw [hc.store]) (by rw [hc.store])

theorem FormatRuns.formatFails {s : State} (h : FormatRuns s) (f : FormatFlight) : DirInv (s.formatFails f) := by
  unfold State.formatFails
  have h1 : FormatRuns (State.retireAll { s with lw := LogWriter.reset } f.toRetire) :=
    h.ofCalm (Calm.trans .same (retireAll_calm _ _))
  exact h1.toDirInv.formatEnds (noMountRequest_of_none h1.req) f (by decide) _

theorem FormatRuns.formatDone {s : State} (h : FormatRuns s) (f : FormatFlight) : DirInv (s.formatDone f) := by
  unfold State.formatDone
  have h1 : FormatRuns { s with store := { s.store with result := .clean } } := h.same
  exact h1.toDirInv.formatEnds (noMountRequest_of_none h1.req) f (by decide) _

theorem FormatRuns.formatRetireNext {s : State} (h : FormatRuns s) (f : FormatFlight) (l : List SectorIx) :
    DirInv (s.formatRetireNext f l) := by
  unfold State.formatRetireNext
  split
  · exact h.formatDone f
  · exact h.formatDone f
  · refine DirInv.placeM ?_ ?_ _
    · refine FormatRuns.toDirInv ?_
      exact h.same
    · exact fun e => nomatch e

theorem FormatRuns.formatOpenNext {s : State} (h : FormatRuns s) (f : FormatFlight) : DirInv (s.formatOpenNext f) := by
  unfold State.formatOpenNext
  split
  · exact h.formatFails f
  · refine DirInv.placeM ?_ ?_ _
    · refine FormatRuns.toDirInv ?_
      exact h.same
    · exact fun e => nomatch e

theorem FormatRuns.formatTaken {s : State} (h : FormatRuns s) (f : FormatFlight) : DirInv (s.formatTaken f) := by
  unfold State.formatTaken
  split
  · exact h.formatFails f
  · refine FormatRuns.formatOpenNext ?_ f
    exact h.same

theorem FormatRuns.formatOpened {s : State} (h : FormatRuns s) (f : FormatFlight) (k : SectorIx) (a q : Nat)
    (v : Verify) : DirInv (s.formatOpened f k a q v) := by
  have h1 := h.ofCalm (stampOpened_rest s k a q v)
  unfold State.formatOpened
  cases v with
  | passed =>
    refine FormatRuns.formatRetireNext ?_ f _
    exact h1.same
  | failed => exact h1.formatOpenNext f

theorem FormatRuns.formatRetireEnded {s : State} (h : FormatRuns s) (f : FormatFlight) (i : SectorIx)
    (todo : List SectorIx) (l : Loc) (v : Verify) : DirInv (s.formatRetireEnded f i todo l v) := by
  cases v with
  | passed =>
    refine FormatRuns.formatRetireNext ?_ f todo
    exact h.same
  | failed =>
    refine FormatRuns.formatRetireNext ?_ f todo
    exact h.same

theorem FormatRuns.formatTake {s : State} (h : FormatRuns s) (f : FormatFlight) (l : List SectorIx) :
    DirInv (s.formatTake f l) := by
  induction l generalizing s f with
  | nil => exact h.formatTaken f
  | cons i rest ih =>
    rw [State.formatTake]
    split
    · refine ih ?_ _
      exact h.same
    · refine DirInv.placeM ?_ ?_ _
      · refine FormatRuns.toDirInv ?_
        exact h.same
      · exact fun e => nomatch e

theorem DirInv.formatReadLine {s : State} (h : DirInv s) (f : FormatFlight) (i : SectorIx) :
    DirInv (s.formatReadLine f i) := by
  refine DirInv.placeM ?_ ?_ _
  · exact h.setStore h.mounting h.request h.scanned
  · exact fun e => nomatch e

theorem FormatRuns.formatReadEnded {s : State} (h : FormatRuns s) (f : FormatFlight) (i : SectorIx) (bs : List Byte) :
    DirInv (s.formatReadEnded f i bs) := by
  have h1 : FormatRuns (s.modSector i (SectorEntry.recount bs)) := h.same
  unfold State.formatReadEnded
  simp only
  split
  · exact h1.toDirInv.formatReadLine f _
  · exact h1.formatTake f _

theorem FormatRuns.formatErased {s : State} (h : FormatRuns s) (f : FormatFlight) (i : SectorIx)
    (todo : List SectorIx) (v : Verify) : DirInv (s.formatErased f i todo v) := by
  cases v with
  | passed =>
    refine DirInv.placeM ?_ ?_ _
    · refine FormatRuns.toDirInv ?_
      exact h.same
    · exact fun e => nomatch e
  | failed =>
    refine FormatRuns.formatTake ?_ _ _
    exact h.same

theorem formatStamped_calm (s : State) (g : Nat) (i : SectorIx) (v : Verify) : Calm s (s.formatStamped g i v) := by
  cases v <;> exact .same

theorem DirInv.abandonedProgram {s : State} (h : DirInv s) (v : Verify) {effect : State → State}
    (he : Calm s (effect s)) : DirInv (s.abandonedProgram v effect) := by
  unfold State.abandonedProgram
  split
  · exact he.sound.steady.inv h
  · exact (h.raiseIf _ _).resumeMount

theorem beginFormat_inv {s : State} (h : DirInv s) (hst : s.store.st ≠ .mounting) (hw : noWrite s) (tag : Byte) :
    DirInv (s.beginFormat tag) := by
  unfold State.beginFormat
  refine DirInv.formatReadLine ?_ _ _
  exact
    { toDirTm := .of_noWrite hw stagingWithin_nil rfl (fun _ he => absurd he List.not_mem_nil) (Nat.zero_le _)
      mounting := fun e => nomatch e
      request := fun q hq ha hp => nomatch (h.noMountRequest hst q hq ha).symm.trans hp
      scanned := h.scanned }

theorem DirInv.dropM {s : State} (h : DirInv s) : DirInv s.dropM := by
  obtain ⟨hd, ht, hst, hscan⟩ := dropM_rest s
  exact h.setStore (fun e => by unfold noWrite; rw [ht]; exact h.mounting (hst ▸ e))
    (fun q hq ha => nomatch (dropM_req hq).symm.trans ha) (by rw [hscan]; exact h.scanned) hd ht

theorem formatUnerase_calm (s : State) (f : FormatFlight) (keep : Bool) : Calm s (s.formatUnerase f keep) := by
  unfold State.formatUnerase
  split
  · exact .same
  · split
    · exact .refl s
    · exact .same
  · exact .refl s

theorem abandonErase_rest (s : State) : s.abandonErase.dir = s.dir ∧ s.abandonErase.tm = s.tm ∧
    s.abandonErase.store = s.store ∧ s.abandonErase.pins = s.pins := by
  unfold State.abandonErase
  split
  · exact ⟨rfl, rfl, rfl, rfl⟩
  · rename_i e he
    have h := calm_unErase s e.slot
    exact ⟨h.dir, h.tm, h.store, h.pins⟩

theorem DirInv.formatAborts {s : State} (h : DirInv s) (hst : s.store.st ≠ .mounting) : DirInv s.formatAborts := by
  obtain ⟨hd, ht, hs, -⟩ := abandonErase_rest s
  have h1 : DirInv s.abandonErase := h.same hd ht hs
  have hst1 : s.abandonErase.store.st ≠ .mounting := by rw [hs]; exact hst
  unfold State.formatAborts
  simp only
  split
  · refine DirInv.dropM ?_
    exact h1.setStore (fun e => nomatch e)
      (fun q hq ha hp => nomatch (h1.noMountRequest hst1 q hq ha).symm.trans hp) h1.scanned
  · rename_i f hf
    have hc (keep : Bool) := (formatUnerase_calm s.abandonErase f keep).trans (retireAll_calm _ f.listed)
    have h2 (keep : Bool) := (hc keep).sound.steady.inv h1
    refine (DirInv.formatEnds (h2 _) ((h2 _).noMountRequest ?_) f (st := .powerHold) (by decide) _).dropM
    rw [(hc _).store]
    exact hst1

/-! ### PFAIL# -/

theorem DirInv.powerHold {s : State} (h : DirInv s) (hst : s.store.st ≠ .mounting) : DirInv s.powerHold.1 := by
  unfold State.powerHold
  simp only
  have h0 : DirInv (if s.store.st = .mounted then s.holdStaging else s) ∧
      (if s.store.st = .mounted then s.holdStaging else s).store = s.store := by
    split
    · exact ⟨{ toDirTm := h.congr rfl rfl id id, mounting := h.mounting, request := h.request, scanned := h.scanned }, rfl⟩
    · exact ⟨h, rfl⟩
  obtain ⟨h0, hstore⟩ := h0
  generalize (if s.store.st = .mounted then s.holdStaging else s) = s0 at h0 hstore ⊢
  generalize hs : ({ s0 with store := _, lw := _ } : State) = s1
  have h1 : DirInv s1 := by
    subst hs
    exact h0.setStore (fun e => nomatch e)
      (fun q hq ha hp => nomatch (h0.noMountRequest (by rw [hstore]; exact hst) q hq ha).symm.trans hp) h0.scanned
  obtain ⟨hd, ht, hst', -⟩ := refuseWaiting_rest s1 .powerFail
  obtain ⟨hd2, ht2, hst2, -⟩ := abandonErase_rest (s1.refuseWaiting .powerFail).1
  have h2 : DirInv (s1.refuseWaiting .powerFail).1.abandonErase :=
    h1.same (hd2.trans hd) (ht2.trans ht) (hst2.trans hst')
  exact ((calm_refuseReady _ .powerFail).sound.trans (sound_failWaiter _ .powerFail)).steady.inv h2

theorem DirInv.powerFails {s : State} (h : DirInv s) : DirInv s.powerFails.1 := by
  unfold State.powerFails
  split
  · rename_i hst; exact h.powerHold (by rw [hst]; decide)
  · rename_i hst; exact h.powerHold (by rw [hst]; decide)
  · exact h.toDirTm.mountAborts
  · rename_i hst; exact h.formatAborts (by rw [hst]; decide)
  · rename_i hst
    exact h.setStore (fun e => nomatch e)
      (fun q hq ha hp => nomatch (h.noMountRequest (by rw [hst]; decide) q hq ha).symm.trans hp) h.scanned
  · exact h

end Sys2Proof.Machine
end

section
/-! SUPPORT. The directory along a step: each command keeps the invariant, and nothing happens while the part is held in
reset. -/

namespace Sys2Proof.Machine

set_option Elab.async false

/-! ### Takes -/

theorem mayTake_state {s : State} (h : s.mayTake = true) : s.store.st ≠ .mounting := by
  unfold State.mayTake at h
  simp only [Bool.and_eq_true, decide_eq_true_eq] at h
  exact h.1.1

/-- A take keeps the invariant when its run does, outside MOUNTING and with a completion place left. -/
theorem DirInv.takes {s t : State} {test : Byte → Bool} {run : State → CmdEntry → Host.Outcome State Fault Refusal}
    (h : DirInv s) (hn : s.takes test run = .next t)
    (hrun : ∀ u e, DirInv u → u.hasRoom → u.store.st ≠ .mounting → run u e = .next t → DirInv t) : DirInv t := by
  rcases takes_next hn with rfl | ⟨e, he, hnext⟩
  · exact h
  · exact hrun _ e h.same (hasRoom_dequeue he) (mayTake_state (takeable_some he).2.1) hnext

/-- A list changed while no commit is in flight. -/
theorem DirInv.setList {s t : State} (h : DirInv s) (hk : Keeps s t) (hc : t.tm.commit = none)
    (hw : t.tm.settings = s.tm.settings) (hd : t.dir = s.dir) (hs : t.store = s.store) : DirInv t where
  staging := hk.staging h.staging
  sorted := hd ▸ h.sorted
  keys := hd ▸ h.keys
  size := hd ▸ h.size
  commit := fun hn => absurd hc hn
  settings := by rw [hd, hw]; exact h.settings
  one := .inl hc
  mounting := fun e => ⟨hc, hw.trans (h.mounting (hs ▸ e)).2⟩
  request := hs ▸ h.request
  scanned := hs ▸ h.scanned

theorem admitStaging_none {s : State} (h : s.admitStaging = none) : s.tm.commit = none := by
  unfold State.admitStaging at h
  split at h
  · exact nomatch h
  · split at h
    · exact nomatch h
    · rename_i hc
      exact Option.isSome_eq_false_iff.mp (Bool.eq_false_iff.mpr hc) |> Option.isNone_iff_eq_none.mp

theorem DirInv.answer {s : State} (h : DirInv s) (e : CmdEntry) (st : Status) (a b c : Nat) :
    DirInv (s.answer e st a b c) := h.same

theorem DirInv.takeGet {s : State} (h : DirInv s) (e : CmdEntry) : DirInv (s.takeGet e) := by
  unfold State.takeGet
  split
  · exact h.answer ..
  · split
    · exact (h.raiseIf _ _).answer ..
    · rename_i d hd
      refine (steady_grant _).inv ?_
      unfold State.startGet
      simp only
      rcases place_cases { s with cu := { s.cu with executing := some ⟨e.tag, e.key, d.loc, d.lines, d.length, d.seq⟩ } } .h
        (.readRecord d.loc.sector d.loc.line (.lines d.lines)) with ⟨st, -, -, he⟩ | he <;> rw [he] <;> exact h.same

theorem DirInv.takeNext {s : State} (h : DirInv s) (e : CmdEntry) : DirInv (s.takeNext e) := by
  unfold State.takeNext
  split
  · exact h.answer ..
  · split <;> exact h.answer ..

theorem DirInv.takePut {s : State} (h : DirInv s) (hroom : s.hasRoom) (e : CmdEntry) : DirInv (s.takePut e) := by
  have hk := keeps_takePut hroom e
  unfold State.takePut at hk ⊢
  split at hk
  · exact (h.raiseIf _ _).answer ..
  · rename_i hcheck
    obtain ⟨hadmit, -⟩ := putCheck_none hcheck
    exact h.setList hk (admitStaging_none hadmit) rfl rfl rfl

theorem DirInv.takeDelete {s : State} (h : DirInv s) (hroom : s.hasRoom) (e : CmdEntry) : DirInv (s.takeDelete e) := by
  have hk := keeps_takeDelete hroom e
  unfold State.takeDelete at hk ⊢
  split at hk
  · exact (h.raiseIf _ _).answer ..
  · rename_i hcheck
    obtain ⟨hadmit, -⟩ := deleteCheck_none hcheck
    exact h.setList hk (admitStaging_none hadmit) rfl rfl rfl

theorem DirInv.takeDiscard {s : State} (h : DirInv s) (hroom : s.hasRoom) (e : CmdEntry) : DirInv (s.takeDiscard e) := by
  have hk := keeps_takeDiscard hroom e
  unfold State.takeDiscard at hk ⊢
  split at hk
  · exact h.answer ..
  · exact h.setList hk (admitStaging_none ‹_›) rfl rfl rfl

theorem sound_changeSetting (s : State) (id v : Nat) :
    Sound { s with settings := s.settings.write id v } (s.changeSetting id v).1 := by
  unfold State.changeSetting
  simp only
  split
  · exact sound_requestSpace _
  · split
    · exact .refl _
    · exact sound_lookForWork _

theorem DirInv.concludes {a : Answer} {t : State} (h : DirInv a.1) (hc : conclude a = .next t) : DirInv t :=
  (steady_conclude hc).inv h

theorem DirInv.takeSetting {s t : State} (h : DirInv s) {e : CmdEntry} (hn : s.takeSetting e = .next t) : DirInv t := by
  unfold State.takeSetting at hn
  split at hn
  · exact (h.answer ..).concludes hn
  · split at hn
    · exact (h.answer ..).concludes hn
    · split at hn
      · split at hn
        · rename_i u hu
          have hset : DirInv { s with settings := s.settings.write e.arg0.toNat e.arg1.toNat } := h.same
          have h2 : DirInv u := ((sound_changeSetting s _ _).steady.trans (steady_settle hu)).inv hset
          exact (h2.answer ..).concludes hn
        · exact nomatch hn
      · exact (h.answer ..).concludes hn

theorem DirInv.takeGuardSet {s : State} (h : DirInv s) (e : CmdEntry) : DirInv (s.takeGuardSet e) := by
  unfold State.takeGuardSet
  split
  · exact h.answer ..
  · split
    · split <;> exact h.same
    · exact h.answer ..

theorem DirInv.takeGuardFix {s : State} (h : DirInv s) (e : CmdEntry) : DirInv (s.takeGuardFix e) := by
  unfold State.takeGuardFix
  split
  · exact h.answer ..
  · split
    · simp only
      split <;> exact h.same
    · exact h.answer ..

theorem DirInv.takeSectorQuery {s : State} (h : DirInv s) (e : CmdEntry) : DirInv (s.takeSectorQuery e) := by
  unfold State.takeSectorQuery
  split
  · simp only
    split
    · exact h.answer ..
    · split <;> exact h.answer ..
  · exact h.answer ..

theorem noWrite_of_not_inFlight {s : State} (h : s.writeInFlight = false) : noWrite s := by
  unfold State.writeInFlight at h
  simp only [Bool.or_eq_false_iff, Option.isSome_eq_false_iff, Option.isNone_iff_eq_none] at h
  exact h

/-- What the checks of COMMIT leave: no write in flight, and a place for each new key (R70). -/
theorem commitCheck_none {s : State} (h : s.commitCheck = none) :
    noWrite s ∧ s.dir.length + newOps s.dir s.tm.staging ≤ Config.directoryCapacity := by
  unfold State.commitCheck at h
  split at h
  · exact nomatch h
  · split at h
    · exact nomatch h
    · split at h
      · exact nomatch h
      · rename_i hwrite
        split at h
        · exact nomatch h
        · split at h
          · exact nomatch h
          · rename_i hcap
            exact ⟨noWrite_of_not_inFlight (Bool.eq_false_iff.mpr hwrite), Nat.not_lt.mp hcap⟩

/-- What the checks of SAVE-SETTINGS leave: no write in flight, and a place for a new settings key (R168). -/
theorem saveCheck_none {s : State} (h : s.saveCheck = none) :
    noWrite s ∧ (newIn s.dir Config.settingsKey = true → s.dir.length + 1 ≤ Config.directoryCapacity) := by
  unfold State.saveCheck at h
  split at h
  · exact nomatch h
  · split at h
    · exact nomatch h
    · rename_i hwrite
      split at h
      · exact nomatch h
      · split at h
        · exact nomatch h
        · rename_i hcap
          refine ⟨noWrite_of_not_inFlight (Bool.eq_false_iff.mpr hwrite), fun hnew => ?_⟩
          have hnew : s.isNew Config.settingsKey = true := hnew
          rw [hnew, Bool.true_and, decide_eq_true_eq] at hcap
          omega

theorem DirInv.takeCommitCommand {s : State} (h : DirInv s) (hst : s.store.st ≠ .mounting) (e : CmdEntry) :
    DirInv (s.takeCommitCommand e).1 := by
  unfold State.takeCommitCommand
  split
  · exact (h.raiseIf _ _).answer ..
  · rename_i hcheck
    obtain ⟨hwrite, hroom⟩ := commitCheck_none hcheck
    refine (sound_requestSpace _).steady.inv ?_
    exact
      { staging := h.staging, sorted := h.sorted, keys := h.keys, size := h.size
        commit := fun _ => hroom
        settings := fun hn => absurd hwrite.2 hn
        one := .inr hwrite.2
        mounting := fun em => absurd em hst
        request := h.request, scanned := h.scanned }

theorem DirInv.takeSaveSettings {s : State} (h : DirInv s) (hst : s.store.st ≠ .mounting) (e : CmdEntry) :
    DirInv (s.takeSaveSettings e).1 := by
  unfold State.takeSaveSettings
  split
  · exact (h.raiseIf _ _).answer ..
  · rename_i hcheck
    obtain ⟨hwrite, hroom⟩ := saveCheck_none hcheck
    refine (sound_requestSpace _).steady.inv ?_
    exact
      { staging := h.staging, sorted := h.sorted, keys := h.keys, size := h.size
        commit := fun hn => absurd hwrite.1 hn
        settings := fun _ => hroom
        one := .inl hwrite.1
        mounting := fun em => absurd em hst
        request := h.request, scanned := h.scanned }

theorem DirInv.takeReclaim {s : State} (h : DirInv s) (e : CmdEntry) : DirInv (s.takeReclaim e).1 := by
  unfold State.takeReclaim
  split
  · exact h.answer ..
  · split
    · exact h.answer ..
    · split
      · exact h.answer ..
      · split
        · exact h.answer ..
        · refine (calm_startUnit _ _ _ _).sound.steady.inv ?_
          exact h.same

theorem noWrite_of_no_work {s : State} (h : s.workInFlight = false) : noWrite s := by
  unfold State.workInFlight at h
  simp only [Bool.or_eq_false_iff] at h
  exact noWrite_of_not_inFlight h.1.1

theorem mountCheck_none {s : State} (h : s.mountCheck = none) : s.workInFlight = false := by
  unfold State.mountCheck at h
  split at h
  · exact nomatch h
  · split at h
    · exact nomatch h
    · split at h
      · exact nomatch h
      · split at h
        · exact nomatch h
        · exact Bool.eq_false_iff.mpr ‹_›

theorem formatCheck_none {s : State} (h : s.formatCheck = none) : s.workInFlight = false := by
  unfold State.formatCheck at h
  split at h
  · exact nomatch h
  · split at h
    · exact nomatch h
    · split at h
      · exact nomatch h
      · split at h
        · exact nomatch h
        · exact Bool.eq_false_iff.mpr ‹_›

theorem DirInv.takeMount {s : State} (h : DirInv s) (e : CmdEntry) : DirInv (s.takeMount e) := by
  unfold State.takeMount
  split
  · exact h.answer ..
  · rename_i hcheck
    have hwrite : noWrite s := noWrite_of_no_work (mountCheck_none hcheck)
    exact beginMount_inv (s := s.launch e) hwrite _

theorem DirInv.takeFormat {s : State} (h : DirInv s) (hst : s.store.st ≠ .mounting) (e : CmdEntry) :
    DirInv (s.takeFormat e) := by
  unfold State.takeFormat
  split
  · exact h.answer ..
  · rename_i hcheck
    have hwrite : noWrite s := noWrite_of_no_work (formatCheck_none hcheck)
    have hl : DirInv (s.launch e) := h.same
    exact beginFormat_inv hl hst hwrite _

theorem DirInv.next {u t : State} (h : DirInv u) (hn : Host.Outcome.next (φ := Fault) (ρ := Refusal) u = .next t) :
    DirInv t :=
  stands_of_next hn ▸ h

theorem DirInv.taken {c : Instr} {s t : State} (h : DirInv s) (hc : c ∈ hostCommands) (hn : exec c s = .next t) :
    DirInv t := by
  simp only [hostCommands, List.mem_cons, List.not_mem_nil, or_false] at hc
  rcases hc with rfl | rfl | rfl | rfl | rfl | rfl | rfl | rfl | rfl | rfl | rfl | rfl | rfl | rfl | rfl
  · rw [exec_get] at hn
    exact h.takes hn fun _ e hu _ _ hx => (hu.takeGet e).next hx
  · rw [exec_nextCommand] at hn
    exact h.takes hn fun _ e hu _ _ hx => (hu.takeNext e).next hx
  · rw [exec_put] at hn
    exact h.takes hn fun _ e hu hr _ hx => (hu.takePut hr e).next hx
  · rw [exec_delete] at hn
    exact h.takes hn fun _ e hu hr _ hx => (hu.takeDelete hr e).next hx
  · rw [exec_discard] at hn
    exact h.takes hn fun _ e hu hr _ hx => (hu.takeDiscard hr e).next hx
  · rw [exec_commit] at hn
    exact h.takes hn fun _ e hu _ hst hx => (hu.takeCommitCommand hst e).concludes hx
  · rw [exec_setting] at hn
    exact h.takes hn fun _ _ hu _ _ hx => hu.takeSetting hx
  · rw [exec_saveSettings] at hn
    exact h.takes hn fun _ e hu _ hst hx => (hu.takeSaveSettings hst e).concludes hx
  · rw [exec_guardSet] at hn
    exact h.takes hn fun _ e hu _ _ hx => (hu.takeGuardSet e).next hx
  · rw [exec_guardFix] at hn
    exact h.takes hn fun _ e hu _ _ hx => (hu.takeGuardFix e).next hx
  · rw [exec_sectorQuery] at hn
    exact h.takes hn fun _ e hu _ _ hx => (hu.takeSectorQuery e).next hx
  · rw [exec_reclaim] at hn
    exact h.takes hn fun _ e hu _ _ hx => (hu.takeReclaim e).concludes hx
  · rw [exec_mount] at hn
    exact h.takes hn fun _ e hu _ _ hx => ((steady_grant _).inv (hu.takeMount e)).next hx
  · rw [exec_format] at hn
    exact h.takes hn fun _ e hu _ hst hx => ((steady_grant _).inv (hu.takeFormat hst e)).next hx
  · rw [exec_unknownCommand] at hn
    exact h.takes hn fun _ e hu _ _ hx => (hu.answer e ..).next hx

/-! ### The ends of array operations -/

theorem ArrayEnded.dirInv {s u : State} (hu : ArrayEnded s u) (h : DirInv s) : DirInv u := by
  have hd : u.dir = s.dir := by rw [hu.rest]
  have ht : u.tm = s.tm := by rw [hu.rest]
  have hwrites : noWrite s → noWrite u := fun hn => by unfold noWrite; rw [ht]; exact hn
  rcases hu.store with e | e
  · exact h.same hd ht e
  · refine h.setStore ?_ ?_ ?_ hd ht <;> rw [e]
    · exact hwrites ∘ h.mounting
    · exact fun _ hq => nomatch hq
    · exact h.scanned

theorem ArrayEnded.mountRuns {s u : State} (hu : ArrayEnded s u) (h : DirInv s) {p : MPurpose}
    (hp : p.ofMount = true) (hwas : s.store.req = some { purpose := p, abandoned := false })
    (hreq : u.store.req = none) : MountRuns u where
  toDirInv := hu.dirInv h
  st := by
    have hst : s.store.st = .mounting := h.request _ hwas rfl hp
    rcases hu.store with e | e <;> rw [e] <;> exact hst
  req := hreq

theorem DirInv.endAnswer {s u : State} {a : Answer} (h : DirInv s) (hu : ArrayEnded s u) (ha : EndAnswer s u a) :
    DirInv a.1 := by
  have h1 := hu.dirInv h
  have hf (hreq : u.store.req = none) : FormatRuns u := { toDirInv := h1, req := hreq }
  cases ha with
  | line v => exact (calm_lineEnded u v).sound.steady.inv h1
  | opening v => exact (calm_openingEnded u v).sound.steady.inv h1
  | walk sec rr => exact (sound_walkReadEnds u sec rr).steady.inv h1
  | stamp sec v => exact (calm_stampEnded u sec v).sound.steady.inv h1
  | erase sec v => exact (calm_eraseEnded u sec v).sound.steady.inv h1
  | resumed hreq => exact h1.resumeMount
  | mountStamp i bs hreq hwas => exact (hu.mountRuns h rfl hwas hreq).stampRead i bs
  | mountRecord sec rr hreq hwas => exact (hu.mountRuns h rfl hwas hreq).recordRead sec rr
  | mountOpen k a q v hreq hwas => exact (hu.mountRuns h rfl hwas hreq).mountOpened k a q v
  | abandonedOpen k a q v hreq => exact h1.abandonedOpen k a q v
  | formatRead f i bs hreq => exact (hf hreq).formatReadEnded f i bs
  | formatErase f i v hreq => exact (hf hreq).formatErased f i _ v
  | formatStamp f i v hreq => exact ((hf hreq).ofCalm (formatStamped_calm u _ i v)).formatTake f _
  | abandonedStamp i v hreq =>
    exact h1.abandonedProgram (effect := fun t => t.formatStamped t.store.generation i v) v (formatStamped_calm u _ i v)
  | formatOpen f k a q v hreq => exact (hf hreq).formatOpened f k a q v
  | formatRetire f i l v hreq => exact (hf hreq).formatRetireEnded f i _ l v
  | abandonedRetire v hreq =>
    exact h1.abandonedProgram (effect := fun t => t.raiseIf (decide (v = .failed)) .programFault) v (calm_raiseIf u _ _)

theorem DirInv.arrayEnd {c : Instr} {s t : State} (h : DirInv s) (hc : IsArrayEnd c) (hn : exec c s = .next t) :
    DirInv t := by
  rcases endsStep_of_exec hc hn with rfl | ⟨u, a, hu, ha, ht⟩
  · exact h
  · exact (h.endAnswer hu ha).concludes ht

theorem DirInv.getEnds {s : State} (h : DirInv s) (g : GetFlight) (rr : ReadResult) : DirInv (s.getEnds g rr) := by
  unfold State.getEnds
  split <;> exact h.same

theorem DirInv.takeHead {s t : State} (h : DirInv s) (hn : s.takeHead = .next t) : DirInv t := by
  rcases takeHead_cases s with ⟨-, e⟩ | ⟨c, hc, e⟩
  · rw [e] at hn
    exact h.next hn
  · rw [e] at hn
    exact h.taken hc hn

theorem DirInv.getReadEnd {r : ReadOutcome} {s t : State} (h : DirInv s) (hn : exec (.getReadEnd r) s = .next t) :
    DirInv t := by
  rcases getReadEnd_next hn with rfl | ⟨g, u, v, rr, -, hu, -, -, hv, rfl⟩
  · exact h
  · exact (steady_grant v).inv (((hu.dirInv h).getEnds g rr).takeHead hv)

/-! ### Resets, pins and frames -/

/-- A change of blocks other than the directory, the Transaction Manager and the Store Controller. -/
structure Aside (s t : State) : Prop where
  dir : t.dir = s.dir
  tm : t.tm = s.tm
  store : t.store = s.store

theorem Aside.of_next {s u t : State} (h : Aside s u)
    (hn : Host.Outcome.next (φ := Fault) (ρ := Refusal) u = .next t) : Aside s t :=
  stands_of_next hn ▸ h

theorem Aside.refl (s : State) : Aside s s := ⟨rfl, rfl, rfl⟩

theorem DirInv.aside {s t : State} (h : DirInv s) (ha : Aside s t) : DirInv t := h.same ha.dir ha.tm ha.store

theorem aside_writeLocation (s : State) (a : BitVec 6) (b : Byte) : Aside s (s.writeLocation a b) := by
  unfold State.writeLocation State.offerCommand
  split
  case h_11 => split <;> exact ⟨rfl, rfl, rfl⟩
  all_goals exact ⟨rfl, rfl, rfl⟩

theorem aside_acceptByte (s : State) (b : Byte) : Aside s (s.acceptByte b) := by
  unfold State.acceptByte
  split <;> exact ⟨rfl, rfl, rfl⟩

theorem aside_clearInput (s : State) : Aside s s.clearInput := by
  unfold State.clearInput
  split <;> exact ⟨rfl, rfl, rfl⟩

theorem aside_readByte (s : State) (f : Frame) : Aside s (s.readByte f) := by
  unfold State.readByte
  split <;> exact ⟨rfl, rfl, rfl⟩

theorem aside_setPort (s : State) (p : PortState) (b : Option Byte) : Aside s (s.setPort p b) := ⟨rfl, rfl, rfl⟩

theorem aside_setPfail (s : State) (low : Bool) : Aside s (s.setPfail low) := ⟨rfl, rfl, rfl⟩

theorem aside_suspend (s : State) (e : EraseRun) : Aside s (s.suspend e) := ⟨rfl, rfl, rfl⟩

theorem aside_afterWrite {s t : State} (h : Aside s t) (f : Frame) : Aside s (t.afterWrite f) :=
  ⟨h.dir, h.tm, h.store⟩

/-- The commands of the serial port. -/
inductive IsPort : Instr → Prop where
  | registerWrite (b : Byte) : IsPort (.registerWrite b)
  | faults (b : Byte) : IsPort (.faults b)
  | cqPop (b : Byte) : IsPort (.cqPop b)
  | dataIn (b : Byte) : IsPort (.dataIn b)
  | inClear (b : Byte) : IsPort (.inClear b)
  | dataOut : IsPort .dataOut
  | controlByte (b : FirstByte) : IsPort (.controlByte b)
  | csRisingEdge : IsPort .csRisingEdge

theorem aside_of_port {c : Instr} {s t : State} (hc : IsPort c) (h : exec c s = .next t) : Aside s t := by
  cases hc with
  | registerWrite b =>
    unfold exec execRegisterWrite at h
    simp only at h
    split at h
    · exact (Aside.refl s).of_next h
    · exact (aside_afterWrite (aside_writeLocation s _ b) _).of_next h
  | faults b =>
    obtain ⟨w, -, -, rfl⟩ := faults_next h
    exact ⟨rfl, rfl, rfl⟩
  | cqPop b =>
    unfold exec execCqPop at h
    simp only at h
    split at h
    · exact (Aside.refl s).of_next h
    · rename_i f hf
      have htail : Aside s { s with cu := { s.cu with completions := s.cu.completions.tail } } := ⟨rfl, rfl, rfl⟩
      exact (aside_afterWrite htail f).of_next h
  | dataIn b =>
    unfold exec execDataIn at h
    simp only at h
    split at h
    · exact (Aside.refl s).of_next h
    · exact (aside_afterWrite (aside_acceptByte s b) _).of_next h
  | inClear b =>
    unfold exec execInClear at h
    simp only at h
    split at h
    · exact (Aside.refl s).of_next h
    · exact (aside_afterWrite (aside_clearInput s) _).of_next h
  | dataOut =>
    unfold exec execDataOut at h
    simp only at h
    split at h
    · split at h
      · exact (aside_readByte s _).of_next h
      · exact (Aside.refl s).of_next h
    · exact (Aside.refl s).of_next h
    · exact (Aside.refl s).of_next h
  | controlByte b =>
    unfold exec execControlByte at h
    simp only at h
    split at h
    · split at h
      · exact (aside_setPort s _ _).of_next h
      · exact (aside_setPort s _ _).of_next h
    · exact (Aside.refl s).of_next h
    · exact (Aside.refl s).of_next h
  | csRisingEdge => exact (aside_setPort s _ _).of_next h

/-- What a reset leaves meets the invariant (R117, R180). -/
theorem resetBlocks_inv (s : State) (powerOn : Bool) : DirInv (s.resetBlocks powerOn) where
  toDirTm := .of_noWrite ⟨rfl, rfl⟩ stagingWithin_nil rfl (fun _ he => absurd he List.not_mem_nil) (Nat.zero_le _)
  mounting := fun _ => ⟨rfl, rfl⟩
  request := fun _ hq => nomatch hq
  scanned := fun _ hr => absurd hr List.not_mem_nil

theorem DirInv.endReset {s : State} (h : DirInv s) (hw : noWrite s) : DirInv s.endReset := by
  unfold State.endReset
  split
  · exact h
  · exact beginMount_inv hw _

/-! ### The families of commands -/

/-- The commands by what they are: takes of queued commands, ends of array operations, events of the serial port, and
the rest one by one. -/
inductive Family : Instr → Prop where
  | take {c : Instr} (h : c ∈ hostCommands) : Family c
  | arrayEnd {c : Instr} (h : IsArrayEnd c) : Family c
  | port {c : Instr} (h : IsPort c) : Family c
  | powerOnReset : Family .powerOnReset
  | resetAsserted : Family .resetAsserted
  | resetReleased : Family .resetReleased
  | vccInOperatingRange : Family .vccInOperatingRange
  | softReset (b : Byte) : Family (.softReset b)
  | pfailAsserted : Family .pfailAsserted
  | pfailDeasserted : Family .pfailDeasserted
  | getReadEnd (r : ReadOutcome) : Family (.getReadEnd r)
  | eraseSuspended : Family .eraseSuspended
  | commitRecordOffer : Family .commitRecordOffer

theorem family (c : Instr) : Family c := by
  cases c with
  | get => exact .take (by decide)
  | next => exact .take (by decide)
  | put => exact .take (by decide)
  | delete => exact .take (by decide)
  | discard => exact .take (by decide)
  | commit => exact .take (by decide)
  | setting => exact .take (by decide)
  | saveSettings => exact .take (by decide)
  | guardSet => exact .take (by decide)
  | guardFix => exact .take (by decide)
  | sectorQuery => exact .take (by decide)
  | reclaim => exact .take (by decide)
  | mount => exact .take (by decide)
  | format => exact .take (by decide)
  | unknownCommand => exact .take (by decide)
  | lineProgramEnd v => exact .arrayEnd (.line v)
  | openStampProgramEnd v => exact .arrayEnd (.opening v)
  | reclaimReadEnd r => exact .arrayEnd (.walk r)
  | eraseStampProgramEnd v => exact .arrayEnd (.stamp v)
  | eraseEnd v => exact .arrayEnd (.erase v)
  | mountStampReadEnd r => exact .arrayEnd (.mountStamp r)
  | mountRecordReadEnd r => exact .arrayEnd (.mountRecord r)
  | mountOpenStampEnd v => exact .arrayEnd (.mountOpen v)
  | formatStampReadEnd r => exact .arrayEnd (.formatRead r)
  | formatEraseEnd v => exact .arrayEnd (.formatErase v)
  | formatStampProgramEnd v => exact .arrayEnd (.formatStamp v)
  | formatOpenStampEnd v => exact .arrayEnd (.formatOpen v)
  | formatRetireProgramEnd v => exact .arrayEnd (.formatRetire v)
  | registerWrite b => exact .port (.registerWrite b)
  | faults b => exact .port (.faults b)
  | cqPop b => exact .port (.cqPop b)
  | dataIn b => exact .port (.dataIn b)
  | inClear b => exact .port (.inClear b)
  | dataOut => exact .port .dataOut
  | controlByte b => exact .port (.controlByte b)
  | csRisingEdge => exact .port .csRisingEdge
  | powerOnReset => exact .powerOnReset
  | resetAsserted => exact .resetAsserted
  | resetReleased => exact .resetReleased
  | vccInOperatingRange => exact .vccInOperatingRange
  | softReset b => exact .softReset b
  | pfailAsserted => exact .pfailAsserted
  | pfailDeasserted => exact .pfailDeasserted
  | getReadEnd r => exact .getReadEnd r
  | eraseSuspended => exact .eraseSuspended
  | commitRecordOffer => exact .commitRecordOffer

/-! ### Every command -/

/-- Every command keeps the invariant; the end of a reset needs that no write is in flight, as the hold in reset gives
it. -/
theorem DirInv.exec {c : Instr} {s t : State} (h : DirInv s) (hheld : s.heldInReset = true → noWrite s)
    (hn : exec c s = .next t) : DirInv t := by
  cases family c with
  | take hc => exact h.taken hc hn
  | arrayEnd hc => exact h.arrayEnd hc hn
  | port hc => exact h.aside (aside_of_port hc hn)
  | powerOnReset => exact (resetBlocks_inv _ _).next hn
  | resetAsserted =>
    unfold Sys2Proof.Machine.exec execResetAsserted at hn
    simp only at hn
    split at hn
    · exact h.next hn
    · exact (resetBlocks_inv _ _).next hn
  | resetReleased =>
    unfold Sys2Proof.Machine.exec execResetReleased at hn
    simp only at hn
    split at hn
    · rename_i hlow
      have hw : noWrite (s.setReset false) := hheld (by rw [State.heldInReset, hlow]; rfl)
      have h1 : DirInv (s.setReset false) := h.same
      exact ((steady_grant _).inv (h1.endReset hw)).next hn
    · exact h.next hn
  | softReset b =>
    unfold Sys2Proof.Machine.exec execSoftReset at hn
    simp only at hn
    split at hn
    · exact h.next hn
    · split at hn
      · have hw : noWrite ((s.resetBlocks false).setPort .waitHigh (some 0#8)) := ⟨rfl, rfl⟩
        exact ((steady_grant _).inv (beginMount_inv hw _)).next hn
      · exact (h.aside (aside_afterWrite (.refl s) _)).next hn
  | pfailAsserted =>
    unfold Sys2Proof.Machine.exec execPfailAsserted at hn
    simp only at hn
    split at hn
    · exact h.next hn
    · split at hn
      · exact (h.aside (aside_setPfail s true)).next hn
      · have h1 : DirInv ((s.setPfail true).raise .powerFail) := h.same
        exact h1.powerFails.concludes hn
  | pfailDeasserted => exact (h.aside (aside_setPfail s false)).next hn
  | getReadEnd r => exact h.getReadEnd hn
  | eraseSuspended =>
    unfold Sys2Proof.Machine.exec execEraseSuspended at hn
    simp only at hn
    split at hn
    · split at hn
      · exact ((steady_grant _).inv (h.aside (aside_suspend s _))).next hn
      · exact h.next hn
    · exact h.next hn
  | commitRecordOffer =>
    unfold Sys2Proof.Machine.exec execCommitRecordOffer at hn
    simp only at hn
    split at hn
    · exact h.next hn
    · rename_i f hdue
      have hcommit : s.tm.commit ≠ none := fun e => by
        rw [State.offerDue, e] at hdue
        exact nomatch hdue
      exact ((sound_offerCommit hcommit f).steady.inv h).concludes hn
  | vccInOperatingRange =>
    unfold Sys2Proof.Machine.exec execVccInOperatingRange at hn
    simp only at hn
    split at hn
    · exact h.next hn
    · rename_i hvcc
      have hw : noWrite (s.setVcc true) := hheld (by rw [State.heldInReset, Bool.eq_false_iff.mpr hvcc, Bool.not_false,
        Bool.or_true])
      have h1 : DirInv (s.setVcc true) := h.same
      exact ((steady_grant _).inv (h1.endReset hw)).next hn

/-! ### The part held in reset -/

/-- What a reset leaves while it holds the part: the mount has not begun, the Sequencer is idle and empty, no frame is
open. -/
def Still (s : State) : Prop :=
  s.store.st = .mounting ∧ s.arr = Sequencer.reset ∧ ∀ f, s.win.port ≠ .frame f

theorem still_resetBlocks (s : State) (powerOn : Bool) : Still (s.resetBlocks powerOn) := by
  refine ⟨rfl, rfl, fun f => ?_⟩
  show s.win.port.afterReset ≠ .frame f
  cases s.win.port <;> exact nofun

/-- An idle array without a request grants nothing. -/
theorem grant_of_reset {s : State} (h : s.arr = Sequencer.reset) : s.grant = s := by
  have hslot (x : SlotId) : s.arr.slot x = none := by
    rw [h]
    cases x <;> rfl
  have helig (x : SlotId) : s.eligible x = false := by
    unfold State.eligible
    simp [hslot]
  have hbusy : s.arr.busy = none := by rw [h]; rfl
  have herase : s.arr.erase = none := by rw [h]; rfl
  unfold State.grant
  simp [hbusy, herase, helig]

theorem Still.inHand {s : State} (h : Still s) (x : SlotId) : s.inHand x = none := by
  unfold State.inHand
  rw [h.2.1]
  rfl

theorem Still.inHandM {s : State} (h : Still s) : s.inHandM = none := by
  unfold State.inHandM
  rw [h.inHand]
  split
  · rename_i heq; exact nomatch heq
  · rfl

theorem Still.writeFrame {s : State} (h : Still s) (test : BitVec 6 → Bool) : s.writeFrame test = none := by
  unfold State.writeFrame
  split
  · rename_i f hf; exact absurd hf (h.2.2 f)
  · rfl

theorem Still.takes {s : State} (h : Still s) (test : Byte → Bool)
    (run : State → CmdEntry → Host.Outcome State Fault Refusal) : s.takes test run = .next s := by
  unfold State.takes
  cases htake : s.takeable test with
  | none => rfl
  | some e => exact absurd h.1 (mayTake_state (takeable_some htake).2.1)

theorem Still.arrayEnd {s : State} (h : Still s) {c : Instr} (hc : IsArrayEnd c) : exec c s = .next s := by
  have hand := h.inHand
  have handM := h.inHandM
  cases hc with
  | line v => simp [exec, execLineProgramEnd, hand]
  | opening v => simp [exec, execOpenStampProgramEnd, hand]
  | walk r => simp [exec, execReclaimReadEnd, hand]
  | stamp v => simp [exec, execEraseStampProgramEnd, hand]
  | erase v => simp [exec, execEraseEnd, hand]
  | mountStamp r => simp [exec, execMountStampReadEnd, handM]
  | mountRecord r => simp [exec, execMountRecordReadEnd, handM]
  | mountOpen v => simp [exec, execMountOpenStampEnd, handM]
  | formatRead r => simp [exec, execFormatStampReadEnd, handM]
  | formatErase v => simp [exec, execFormatEraseEnd, handM]
  | formatStamp v => simp [exec, execFormatStampProgramEnd, handM]
  | formatOpen v => simp [exec, execFormatOpenStampEnd, handM]
  | formatRetire v => simp [exec, execFormatRetireProgramEnd, handM]

theorem Still.taken {s : State} (h : Still s) {c : Instr} (hc : c ∈ hostCommands) : exec c s = .next s := by
  simp only [hostCommands, List.mem_cons, List.not_mem_nil, or_false] at hc
  rcases hc with rfl | rfl | rfl | rfl | rfl | rfl | rfl | rfl | rfl | rfl | rfl | rfl | rfl | rfl | rfl
  · rw [exec_get, h.takes]
  · rw [exec_nextCommand, h.takes]
  · rw [exec_put, h.takes]
  · rw [exec_delete, h.takes]
  · rw [exec_discard, h.takes]
  · rw [exec_commit, h.takes]
  · rw [exec_setting, h.takes]
  · rw [exec_saveSettings, h.takes]
  · rw [exec_guardSet, h.takes]
  · rw [exec_guardFix, h.takes]
  · rw [exec_sectorQuery, h.takes]
  · rw [exec_reclaim, h.takes]
  · rw [exec_mount, h.takes]
  · rw [exec_format, h.takes]
  · rw [exec_unknownCommand, h.takes]

theorem Still.of_next {u t : State} (h : Still u)
    (hn : Host.Outcome.next (φ := Fault) (ρ := Refusal) u = .next t) : Still t :=
  stands_of_next hn ▸ h

theorem Still.setPort {s : State} (h : Still s) {p : PortState} (b : Option Byte) (hp : ∀ f, p ≠ .frame f) :
    Still (s.setPort p b) :=
  ⟨h.1, h.2.1, hp⟩

/-- While the part stays held in reset nothing begins: a level or the port changes at most. -/
theorem Still.port {s t : State} (h : Still s) (hheld : s.heldInReset = true) {c : Instr} (hc : IsPort c)
    (hn : exec c s = .next t) : Still t := by
  cases hc with
  | registerWrite b => simp only [exec, execRegisterWrite, h.writeFrame] at hn; exact h.of_next hn
  | faults b => simp only [exec, execFaults, h.writeFrame] at hn; exact h.of_next hn
  | cqPop b => simp only [exec, execCqPop, h.writeFrame] at hn; exact h.of_next hn
  | dataIn b => simp only [exec, execDataIn, h.writeFrame] at hn; exact h.of_next hn
  | inClear b => simp only [exec, execInClear, h.writeFrame] at hn; exact h.of_next hn
  | dataOut =>
    unfold exec execDataOut at hn
    simp only at hn
    split at hn
    · rename_i f hf; exact absurd hf (h.2.2 f)
    · exact h.of_next hn
    · exact h.of_next hn
  | controlByte b =>
    unfold exec execControlByte at hn
    simp only at hn
    split at hn
    · rw [hheld, Bool.true_or, if_pos rfl] at hn
      exact (h.setPort (p := .waitHigh) none fun _ e => nomatch e).of_next hn
    · exact h.of_next hn
    · exact h.of_next hn
  | csRisingEdge => exact (h.setPort (p := .ready) none fun _ e => nomatch e).of_next hn

/-- The end of one of two holds, while the other holds the part. -/
theorem Still.endReset {s t : State} (h : Still s) (ht : t.heldInReset = true)
    (hn : Host.Outcome.next (φ := Fault) (ρ := Refusal) s.endReset.grant = .next t) : Still t := by
  unfold State.endReset at hn
  split at hn
  · rw [grant_of_reset h.2.1] at hn
    exact h.of_next hn
  · rename_i hheld
    have hk := ((outer_beginMount s .automatic).keeps).trans (keeps_grant _)
    exact absurd (hk.held ((stands_of_next hn) ▸ ht)) hheld

/-- A byte at SOFT-RESET puts nothing into a hold (R180). -/
theorem held_of_softReset {b : Byte} {s t : State} (hn : exec (.softReset b) s = .next t) (ht : t.heldInReset = true) :
    s.heldInReset = true := by
  unfold exec execSoftReset at hn
  simp only at hn
  split at hn
  · exact stands_of_next hn ▸ ht
  · split at hn
    · have hk := (outer_beginMount ((s.resetBlocks false).setPort .waitHigh (some 0#8)) .automatic).keeps.trans
        (keeps_grant _)
      exact hk.held (stands_of_next hn ▸ ht)
    · exact (keeps_afterWrite s _).held (stands_of_next hn ▸ ht)

/-- Every command: a part that is held in reset after it is still. -/
theorem still_exec {c : Instr} {s t : State} (h : s.heldInReset = true → Still s) (hw : s.heldInReset = true → noWrite s)
    (hn : exec c s = .next t) (ht : t.heldInReset = true) : Still t := by
  rcases command_kinds c with ⟨b, rfl⟩ | hc | ⟨hf, hp, hr, hs⟩
  · obtain ⟨w, -, -, e⟩ := faults_next hn
    have hheld : s.heldInReset = true := by rw [e] at ht; exact ht
    exact (h hheld).port hheld (.faults b) hn
  · rcases hc with rfl | rfl | ⟨b, rfl⟩
    · exact (still_resetBlocks _ true).of_next hn
    · unfold exec execResetAsserted at hn
      simp only at hn
      split at hn
      · exact (h (stands_of_next hn ▸ ht)).of_next hn
      · exact (still_resetBlocks _ false).of_next hn
    · have hheld := held_of_softReset hn ht
      simp only [exec, execSoftReset, (h hheld).writeFrame] at hn
      exact (h hheld).of_next hn
  · obtain ⟨u, hu, hk⟩ := ended_of_exec hf hp hr hs hn
    have hheld : s.heldInReset = true := by
      have hpins : u.pins = s.pins := by rw [hu.rest]
      exact heldInReset_of_pins hpins (hk.held ht)
    have hstill := h hheld
    cases family c with
    | take hc => exact hstill.of_next (hstill.taken hc ▸ hn)
    | arrayEnd hc => exact hstill.of_next (hstill.arrayEnd hc ▸ hn)
    | port hc => exact hstill.port hheld hc hn
    | powerOnReset => exact absurd rfl hp
    | resetAsserted => exact absurd rfl hr
    | softReset b => exact absurd rfl (hs b)
    | resetReleased =>
      unfold exec execResetReleased at hn
      simp only at hn
      split at hn
      · exact Still.endReset (s := s.setReset false) hstill ht hn
      · exact hstill.of_next hn
    | vccInOperatingRange =>
      unfold exec execVccInOperatingRange at hn
      simp only at hn
      split at hn
      · exact hstill.of_next hn
      · exact Still.endReset (s := s.setVcc true) hstill ht hn
    | pfailAsserted =>
      unfold exec execPfailAsserted at hn
      simp only at hn
      rw [if_pos hheld] at hn
      split at hn
      · exact hstill.of_next hn
      · exact Still.of_next (u := s.setPfail true) hstill hn
    | pfailDeasserted => exact Still.of_next (u := s.setPfail false) hstill hn
    | commitRecordOffer =>
      have hdue : s.offerDue = none := by
        unfold State.offerDue
        rw [(hw hheld).1]
      simp only [exec, execCommitRecordOffer, hdue] at hn
      exact hstill.of_next hn
    | getReadEnd r =>
      unfold exec execGetReadEnd at hn
      rw [hstill.inHand] at hn
      simp only at hn
      split at hn
      · rename_i heq; exact nomatch heq
      · exact hstill.of_next hn
    | eraseSuspended =>
      have herase : s.arr.erase = none := by rw [hstill.2.1]; rfl
      simp only [exec, execEraseSuspended, herase] at hn
      exact hstill.of_next hn

/-- Settles O10: the invariant along every happening, with the part held in reset apart. -/
theorem directoryKept : Obligations.DirectoryKept := by
  intro s t hstaging hsafe h
  rcases step_cases h with rfl | ⟨c, rest, -, hexec⟩
  · have hinv := hsafe.inv hstaging
    rcases tick_cases s with e | ⟨x, hx, e⟩ <;> rw [e]
    · exact hsafe
    · refine DirInv.safe hinv.same fun hheld => ?_
      have herase := congrArg Sequencer.erase (hsafe.held hheld).2.1
      exact nomatch hx.symm.trans herase
  · have hinv : DirInv { s with pending := rest } := (hsafe.inv hstaging).same
    have hw : s.heldInReset = true → noWrite s := fun hheld => hsafe.mounting (hsafe.held hheld).1
    exact (hinv.exec hw hexec).safe (still_exec (s := { s with pending := rest }) hsafe.held hw hexec)

end Sys2Proof.Machine
end

section
/-! SUPPORT. The step itself and the reset state. -/

namespace Sys2Proof.Machine

set_option Elab.async false

/-- Settles O1: `step` is `exec` of the front command, and a tick without one. -/
theorem stepRunsFront : Obligations.StepRunsFront := by
  refine ⟨fun c rest s h => ?front, fun s e hp he hc => ?running, fun s hp he => ?idle⟩
  case front => simp only [step, h]
  case running => simp [step, hp, State.tick, he, hc]
  case idle =>
    have hstep : step s = .next s.tick := by simp only [step, hp]
    rcases tick_cases s with e | ⟨x, hx, -⟩
    · rw [hstep, e]
    · have htick : s.tick = s := by simp [State.tick, hx, he x hx]
      rw [hstep, htick]

/-- Settles O2: the reset state is empty, and its settings are the factory's. -/
theorem resetIsSafe : Obligations.ResetIsSafe := by
  have hinv : DirInv State.reset :=
    { toDirTm := .of_noWrite ⟨rfl, rfl⟩ stagingWithin_nil rfl (fun _ he => absurd he List.not_mem_nil) (Nat.zero_le _)
      mounting := fun _ => ⟨rfl, rfl⟩
      request := fun _ hq => nomatch hq
      scanned := fun _ hr => absurd hr List.not_mem_nil }
  refine ⟨?_, hinv.safe fun _ => ⟨rfl, rfl, fun _ e => nomatch e⟩⟩
  exact
    { flash := rfl, places := Nat.zero_le _, staging := stagingWithin_nil, settings := factory_inRange
      queue := Nat.zero_le _, input := Nat.zero_le _, enables := BitVec.zero_and }

/-- Settles O3: the 64 locations of one fixed state. -/
theorem windowAtReset : Obligations.WindowAtReset := by
  unfold Obligations.WindowAtReset
  decide +kernel

end Sys2Proof.Machine
end

section
/-! SUPPORT. The serial port: frames, the buffers, FAULTS and INT#, and the locations written. -/

namespace Sys2Proof.Machine

set_option Elab.async false

/-! ### Frames -/

theorem exec_controlByte_of_ready {s : State} (h : s.win.port = .ready) (b : FirstByte) :
    exec (.controlByte b) s = .next (if s.heldInReset || b.acrossReset then s.setPort .waitHigh none
      else s.setPort (.frame (s.openFrame b.byte)) (some 0#8)) := by
  simp only [exec, execControlByte, h]

/-- Out of reset a control byte opens its frame. -/
theorem exec_controlByte_opens {s : State} (h : s.win.port = .ready) (hheld : s.heldInReset = false) (b : Byte) :
    exec (.controlByte ⟨b, false⟩) s = .next (s.setPort (.frame (s.openFrame b)) (some 0#8)) := by
  rw [exec_controlByte_of_ready h, hheld]
  rfl

theorem outFor_read (s : State) (a : BitVec 6) :
    s.outFor .read a = if a = 0x24#6 then some (outTaken s.win.output s.win.outPos) else none := by
  simp only [State.outFor, true_and]
  rfl

/-- Settles O22: the frame opened, by its direction bits, and the port otherwise. -/
theorem frameBeginsAndEnds : Obligations.FrameBeginsAndEnds := by
  refine ⟨fun s b hport hheld h6 => ?ignored, fun s b hport hheld h6 h7 => ?write, fun s b hport hheld h6 h7 => ?read,
    fun s b hport hdropped => ?dropped, fun s b hport => ?stray, fun s => rfl⟩
  case ignored =>
    have hdir : controlDir b = .ignored := by rw [controlDir, h6]; rfl
    rw [exec_controlByte_opens hport hheld]
    simp [State.openFrame, hdir, State.outFor, State.setPort]
  case write =>
    have hdir : controlDir b = .write := by rw [controlDir, h6, h7]; rfl
    rw [exec_controlByte_opens hport hheld]
    simp [State.openFrame, hdir, State.outFor, State.setPort]
  case read =>
    have hdir : controlDir b = .read := by rw [controlDir, h6, h7]; rfl
    rw [exec_controlByte_opens hport hheld]
    simp only [State.openFrame, hdir, outFor_read, State.setPort, if_true]
  case dropped =>
    rw [exec_controlByte_of_ready hport, if_pos (by simpa only [Bool.or_eq_true] using hdropped)]
    rfl
  case stray =>
    cases hp : s.win.port with
    | ready => exact absurd hp hport
    | frame f => simp only [exec, execControlByte, hp]
    | waitHigh => simp only [exec, execControlByte, hp]

/-! ### The output buffer -/

theorem exec_dataOut_of_frameAt {s : State} {f : Frame} {a : BitVec 6} (h : s.frameAt f .read a) :
    exec .dataOut s = .next (s.readByte f) := by
  obtain ⟨hport, hdir, -⟩ := h
  simp only [exec, execDataOut, hport, hdir, if_true]

theorem nextAddr_read_of_ne {a : BitVec 6} (h : a ≠ 0x24#6) : nextAddr .read a = a + 1#6 := by
  rw [nextAddr, if_neg (fun hwrite => nomatch hwrite.1), if_neg (fun hheld => h hheld.2)]

/-- Settles O27. -/
theorem dataOut : Obligations.DataOut := by
  refine ⟨fun s f o hframe hout => ?port, fun s f a hframe ha hout => ?other⟩
  case port =>
    refine ⟨_, exec_dataOut_of_frameAt hframe, ?_⟩
    obtain ⟨-, hdir, haddr⟩ := hframe
    have hnext : nextAddr .read f.addr = 0x24#6 := by rw [haddr]; rfl
    have hf : ({ f with addr := 0x24#6 } : Frame) = f := by rw [← haddr]
    cases hadv : o.advances <;>
      simp [State.readByte, Frame.advancesOut, Frame.returns, hout, hadv, hnext, outFor_read, State.setPort, ← haddr]
  case other =>
    refine ⟨_, exec_dataOut_of_frameAt hframe, ?_⟩
    obtain ⟨-, hdir, haddr⟩ := hframe
    simp [State.readByte, Frame.advancesOut, Frame.returns, hout, outFor_read, State.setPort, haddr,
      nextAddr_read_of_ne ha]

/-! ### The input buffer -/

theorem claimed_iff {s : State} : s.claimed = true ↔ ∃ e ∈ s.cu.queue, e.code = 0x20#8 := by
  rw [State.claimed, List.any_eq_true]
  exact ⟨fun ⟨e, he, hcode⟩ => ⟨e, he, of_decide_eq_true hcode⟩, fun ⟨e, he, hcode⟩ => ⟨e, he, decide_eq_true hcode⟩⟩

theorem claimed_eq_false_iff {s : State} : s.claimed = false ↔ ∀ e ∈ s.cu.queue, e.code ≠ 0x20#8 := by
  rw [← Bool.not_eq_true, claimed_iff]
  simp

/-- DATA-IN holds a write frame's address (R172). -/
theorem afterWrite_dataIn (s : State) {f : Frame} (haddr : f.addr = 0x20#6) :
    s.afterWrite f = { s with win := s.win.movedTo f 0x20#6 } := by
  rw [State.afterWrite, haddr]
  rfl

theorem exec_dataIn_of_frameAt {s : State} {f : Frame} (b : Byte) (h : s.frameAt f .write 0x20#6) :
    exec (.dataIn b) s = .next ((s.acceptByte b).afterWrite f) := by
  have hframe : s.writeFrame (fun a => decide (a = addrDataIn)) = some f := writeFrame_of_frameAt h (decide_eq_true rfl)
  simp only [exec, execDataIn, hframe]

theorem exec_inClear_of_frameAt {s : State} {f : Frame} (b : Byte) (h : s.frameAt f .write 0x27#6) :
    exec (.inClear b) s = .next (s.clearInput.afterWrite f) := by
  have hframe : s.writeFrame (fun a => decide (a = 0x27#6)) = some f := writeFrame_of_frameAt h (decide_eq_true rfl)
  simp only [exec, execInClear, hframe]

/-- Settles O26. -/
theorem inputBuffer : Obligations.InputBuffer := by
  refine ⟨fun s f b hframe hfill hqueue => ?joins, fun s f b hframe hfull => ?dropped, fun s f b hframe hqueue => ?empties,
    fun s f b hframe hclaim => ?claimed⟩
  case joins =>
    rw [exec_dataIn_of_frameAt b hframe, State.acceptByte, if_pos ⟨hfill, claimed_eq_false_iff.mpr hqueue⟩,
      afterWrite_dataIn _ hframe.2.2]
  case dropped =>
    have hno : ¬ (s.win.input.length < Config.inputBufferSize ∧ s.claimed = false) := fun ⟨hlen, hfree⟩ => by
      rcases hfull with h | h
      · exact absurd hlen (Nat.not_lt.mpr h)
      · rw [← claimed_iff, hfree] at h
        exact nomatch h
    rw [exec_dataIn_of_frameAt b hframe, State.acceptByte, if_neg hno, afterWrite_dataIn _ hframe.2.2]
    rfl
  case empties =>
    rw [exec_inClear_of_frameAt b hframe, State.clearInput, claimed_eq_false_iff.mpr hqueue,
      afterWrite_eq_movedTo _ hframe.2.2 (by decide)]
    rfl
  case claimed =>
    rw [exec_inClear_of_frameAt b hframe, State.clearInput, claimed_iff.mpr hclaim,
      afterWrite_eq_movedTo _ hframe.2.2 (by decide)]
    rfl

/-! ### FAULTS and INT# -/

theorem exec_faults_of_frameAt {s : State} {f : Frame} {a : BitVec 6} (b : Byte) (h : s.frameAt f .write a)
    (ha : a = 0x06#6 ∨ a = 0x07#6) :
    exec (.faults b) s = .next (State.afterWrite
      { s with win := { s.win with faults := s.win.faults &&& ~~~(faultBits a b) } } f) := by
  have hframe : s.writeFrame (fun a => decide (a = 0x06#6) || decide (a = 0x07#6)) = some f :=
    writeFrame_of_frameAt h (by simpa only [Bool.or_eq_true, decide_eq_true_eq] using ha)
  simp only [exec, execFaults, hframe, h.2.2]

theorem getLsbD_withHigh (w : BitVec 16) (b : Byte) (k : Nat) :
    (withHigh w b).getLsbD k = if k < 8 then w.getLsbD k else b.getLsbD (k - 8) := by
  unfold withHigh
  rw [BitVec.getLsbD_append]
  by_cases h : k < 8 <;> simp [h]

theorem getLsbD_withLow (w : BitVec 16) (b : Byte) (k : Nat) (hk : k < 16) :
    (withLow w b).getLsbD k = if k < 8 then b.getLsbD k else w.getLsbD k := by
  unfold withLow
  rw [BitVec.getLsbD_append]
  by_cases h : k < 8
  · simp [h]
  · have h8 : 8 + (k - 8) = k := by omega
    simp [h, h8]
    omega

/-- The ten indications, in the order of their bits. -/
def indications : List Indication :=
  [.programFault, .eraseFault, .readFault, .sectorRetired, .guardRefusal, .reclaimStalled, .powerFail, .commandOverrun,
   .portOverrun, .mountRepaired]

/-- The ten indications are the ten low bits of the fault summary (R178). -/
theorem exists_indication_iff {w : BitVec 16} :
    w &&& 0x03FF#16 ≠ 0#16 ↔ ∃ i : Indication, w.getLsbD i.bit = true := by
  constructor
  · intro h
    obtain ⟨k, hk, hbit⟩ : ∃ k, k < 16 ∧ (w &&& 0x03FF#16).getLsbD k = true := by
      refine Classical.byContradiction fun hnone => h (BitVec.eq_of_getLsbD_eq fun k hk => ?_)
      rw [BitVec.getLsbD_zero]
      exact Bool.eq_false_iff.mpr fun hb => hnone ⟨k, hk, hb⟩
    rw [BitVec.getLsbD_and, Bool.and_eq_true] at hbit
    obtain ⟨hw, hmask⟩ := hbit
    have hindex : ∀ j : Fin 16, (0x03FF#16).getLsbD j = true → ∃ i ∈ indications, i.bit = j := by decide
    obtain ⟨i, -, hi⟩ := hindex ⟨k, hk⟩ hmask
    exact ⟨i, hi ▸ hw⟩
  · rintro ⟨i, hi⟩ h
    have hbit := congrArg (fun x => x.getLsbD i.bit) h
    simp only [BitVec.getLsbD_and, hi, Bool.true_and, BitVec.getLsbD_zero] at hbit
    cases i <;> exact absurd hbit (by decide)

/-- Settles O24. -/
theorem faultsAndInt : Obligations.FaultsAndInt := by
  refine ⟨fun s f a b hframe ha => ?clears, fun s => ?int⟩
  case clears =>
    have hne : a ≠ addrDataIn := by rcases ha with rfl | rfl <;> decide
    refine ⟨_, exec_faults_of_frameAt b hframe ha, ?_⟩
    rw [afterWrite_eq_movedTo _ hframe.2.2 hne]
    refine ⟨rfl, fun k hk => ?_⟩
    show (s.win.faults &&& ~~~(faultBits a b)).getLsbD k = _
    rw [BitVec.getLsbD_and, BitVec.getLsbD_not]
    rcases ha with rfl | rfl
    · rw [show faultBits 0x06#6 b = withHigh 0#16 b from rfl, getLsbD_withHigh]
      by_cases h8 : k < 8
      · simp [h8, hk, Nat.not_le.mpr h8]
      · simp [h8, hk, Nat.not_lt.mp h8]
    · rw [show faultBits 0x07#6 b = withLow 0#16 b from rfl, getLsbD_withLow _ _ _ hk]
      by_cases h8 : k < 8 <;> simp [h8, hk]
  case int =>
    unfold State.intLow State.indicated
    simp only [Bool.and_eq_true, Bool.or_eq_true, Bool.not_eq_true', decide_eq_true_eq, exists_indication_iff,
      BitVec.getLsbD_and, List.length_pos_iff]

end Sys2Proof.Machine
end

section
/-! SUPPORT. The locations written: what each of the 64 locations reads after a byte at a read-write location. -/

namespace Sys2Proof.Machine

set_option Elab.async false

/-! ### Bytes of 16-bit locations -/

theorem toNat_append_bytes (x y : Byte) : (x ++ y : BitVec (8 + 8)).toNat = 256 * x.toNat + y.toNat := by
  have hy := y.isLt
  rw [BitVec.toNat_append, ← Nat.shiftLeft_add_eq_or_of_lt hy, Nat.shiftLeft_eq]
  omega

theorem be16_append (x y : Byte) : be16 (x ++ y : BitVec (8 + 8)).toNat = [x, y] := by
  have hx := x.isLt
  have hy := y.isLt
  rw [toNat_append_bytes]
  refine List.cons_eq_cons.mpr ⟨?_, List.cons_eq_cons.mpr ⟨?_, rfl⟩⟩ <;> apply BitVec.eq_of_toNat_eq <;>
    rw [BitVec.toNat_ofNat] <;> omega

theorem append_bytes (w : BitVec 16) : (w.extractLsb' 8 8 ++ w.extractLsb' 0 8 : BitVec (8 + 8)) = w := by
  refine BitVec.eq_of_getLsbD_eq fun i hi => ?_
  rw [BitVec.getLsbD_append]
  by_cases h : i < 8
  · simp [h]
  · have h8 : 8 + (i - 8) = i := by omega
    have hlt : i - 8 < 8 := by omega
    simp [h, h8, hlt]

theorem be16_eq (w : BitVec 16) : be16 w.toNat = [w.extractLsb' 8 8, w.extractLsb' 0 8] := by
  conv_lhs => rw [← append_bytes w]
  exact be16_append _ _

theorem be16_withHigh (w : BitVec 16) (b : Byte) : be16 (withHigh w b).toNat = [b, w.extractLsb' 0 8] := be16_append _ _

theorem be16_withLow (w : BitVec 16) (b : Byte) : be16 (withLow w b).toNat = [w.extractLsb' 8 8, b] := be16_append _ _

/-- The mask of INT-ENABLE acts on the high byte alone (R179). -/
theorem append_and_mask (x y : Byte) :
    (show BitVec 16 from (x ++ y : BitVec (8 + 8))) &&& intEnableMask = ((x &&& 0x07#8) ++ y : BitVec (8 + 8)) := by
  have hmask : intEnableMask = (0x07#8 ++ 0xFF#8 : BitVec (8 + 8)) := by decide
  have hy : y &&& 0xFF#8 = y := BitVec.and_allOnes
  rw [hmask]
  show (x ++ y : BitVec (8 + 8)) &&& (0x07#8 ++ 0xFF#8) = _
  rw [BitVec.and_append, hy]

theorem extract_of_enables {w : BitVec 16} (h : w &&& 0xF800#16 = 0#16) : w.extractLsb' 8 8 &&& 0x07#8 = w.extractLsb' 8 8 := by
  have hhigh := congrArg (fun v : BitVec 16 => v.extractLsb' 8 8) h
  simp only [BitVec.extractLsb'_and] at hhigh
  have hmask : (0xF800#16).extractLsb' 8 8 = 0xF8#8 := by decide
  have hzero : (0#16).extractLsb' 8 8 = 0#8 := by decide
  rw [hmask, hzero] at hhigh
  generalize w.extractLsb' 8 8 = x at hhigh ⊢
  have hsplit : x = (x &&& 0xF8#8) ||| (x &&& 0x07#8) := by
    rw [← BitVec.and_or_distrib_left, show (0xF8#8 ||| 0x07#8) = 0xFF#8 by decide]
    exact BitVec.and_allOnes.symm
  conv_rhs => rw [hsplit, hhigh, BitVec.zero_or]

/-! ### The window around the read-write locations -/

/-- Locations 00h–07h. -/
def State.windowHead (s : State) : List Byte :=
  [0x4C#8, 0x10#8, s.storeStateByte, s.reclaimStateByte, s.mountResultByte, 0#8] ++ be16 s.win.faults.toNat

/-- Locations 12h–3Fh. -/
def State.windowTail (s : State) : List Byte :=
  0#8 :: (s.windowMid ++ s.windowHigh)

/-- The window by its read-write locations: INT-ENABLE, CMD-TAG, CMD-KEY, CMD-LEN and CMD-ARG (R175). -/
def windowOf (head : List Byte) (enables : List Byte) (tag : Byte) (key : List Byte) (len a0 a1 a2 a3 : Byte)
    (tail : List Byte) : List Byte :=
  head ++ (enables ++ tag :: (key ++ len :: a0 :: a1 :: a2 :: a3 :: tail))

theorem window_eq (s : State) :
    s.window = windowOf s.windowHead (be16 s.win.intEnable.toNat) s.cu.tag (be16 s.cu.key.toNat) s.cu.len s.cu.arg0
      s.cu.arg1 s.cu.arg2 s.cu.arg3 s.windowTail := rfl

/-- A read-write location is set to a byte: the window read then is the one read before with that byte in its place
(R174, R175, R179). -/
theorem window_writeLocation {s : State} {a : BitVec 6} (b : Byte) (ha : readWrite a)
    (he : s.win.intEnable &&& 0xF800#16 = 0#16) :
    (s.writeLocation a b).window = s.window.set a.toNat (if a = 0x08#6 then b &&& 0x07#8 else b) := by
  obtain ⟨hlow, hhigh⟩ := ha
  have hcases : a = 0x08#6 ∨ a = 0x09#6 ∨ a = 0x0A#6 ∨ a = 0x0B#6 ∨ a = 0x0C#6 ∨ a = 0x0D#6 ∨ a = 0x0E#6 ∨ a = 0x0F#6 ∨
      a = 0x10#6 ∨ a = 0x11#6 := by
    bv_omega
  rcases hcases with rfl | rfl | rfl | rfl | rfl | rfl | rfl | rfl | rfl | rfl
  · have hbytes : be16 (withHigh s.win.intEnable b &&& intEnableMask).toNat =
        [b &&& 0x07#8, s.win.intEnable.extractLsb' 0 8] := by
      rw [withHigh, append_and_mask, be16_append]
    rw [window_eq, window_eq, be16_eq s.win.intEnable]
    exact congrArg (fun l => windowOf s.windowHead l s.cu.tag _ _ _ _ _ _ s.windowTail) hbytes
  · have hbytes : be16 (withLow s.win.intEnable b &&& intEnableMask).toNat =
        [s.win.intEnable.extractLsb' 8 8, b] := by
      rw [withLow, append_and_mask, be16_append, extract_of_enables he]
    rw [window_eq, window_eq, be16_eq s.win.intEnable]
    exact congrArg (fun l => windowOf s.windowHead l s.cu.tag _ _ _ _ _ _ s.windowTail) hbytes
  · rfl
  · rw [window_eq, window_eq, be16_eq s.cu.key]
    exact congrArg (fun l => windowOf s.windowHead _ s.cu.tag l _ _ _ _ _ s.windowTail) (be16_withHigh s.cu.key b)
  · rw [window_eq, window_eq, be16_eq s.cu.key]
    exact congrArg (fun l => windowOf s.windowHead _ s.cu.tag l _ _ _ _ _ s.windowTail) (be16_withLow s.cu.key b)
  · rfl
  · rfl
  · rfl
  · rfl
  · rfl

theorem byteAt_set (l : List Byte) {i : Nat} (b : Byte) (hi : i < l.length) (j : Nat) :
    byteAt (l.set i b) j = if i = j then b else byteAt l j := by
  unfold byteAt
  simp only [List.getD_eq_getElem?_getD, List.getElem?_set, hi, if_true]
  split <;> rfl

theorem length_window (s : State) : s.window.length = 64 := rfl

/-- A byte at a read-write location changes that parameter or the enables alone. -/
theorem writeLocation_rest {s : State} {a : BitVec 6} (b : Byte) (ha : readWrite a) :
    let t := s.writeLocation a b
    t = { s with win := t.win, cu := t.cu } ∧ t.win = { s.win with intEnable := t.win.intEnable } ∧
      t.cu.queue = s.cu.queue ∧ t.cu.completions = s.cu.completions ∧ t.cu.inFlight = s.cu.inFlight ∧
      t.cu.executing = s.cu.executing := by
  obtain ⟨hlow, hhigh⟩ := ha
  have hlt : a.toNat < 0x12 := by bv_omega
  intro t
  unfold t State.writeLocation
  split
  case h_11 heq => omega
  all_goals exact ⟨rfl, rfl, rfl, rfl, rfl, rfl⟩

theorem writeLocation_ignored {s : State} {a : BitVec 6} (b : Byte) (ha : ¬ readWrite a) (hgo : a ≠ 0x12#6) :
    s.writeLocation a b = s := by
  have hout : a.toNat < 0x08 ∨ 0x12 < a.toNat := by
    have hne : a.toNat ≠ 0x12 := fun e => hgo (BitVec.eq_of_toNat_eq e)
    rcases Nat.lt_or_ge a.toNat 0x08 with h | h
    · exact .inl h
    · refine .inr (Classical.byContradiction fun hn => ha ⟨BitVec.le_def.mpr h, BitVec.le_def.mpr ?_⟩)
      show a.toNat ≤ 17
      omega
  unfold State.writeLocation
  split
  case h_12 => rfl
  all_goals omega

theorem writeLocation_go (s : State) (code : Byte) : s.writeLocation 0x12#6 code = s.offerCommand code := rfl

theorem offerCommand_queued {s : State} (code : Byte) (h : s.cu.queue.length < 4) :
    s.offerCommand code = { s with cu := { s.cu with queue := s.cu.queue ++ [s.cu.offered code] } } :=
  if_pos h

theorem offerCommand_full {s : State} (code : Byte) (h : 4 ≤ s.cu.queue.length) :
    s.offerCommand code = s.raise .commandOverrun :=
  if_neg (Nat.not_lt.mpr h)

/-! ### REGISTER_WRITE -/

theorem exec_registerWrite_of_frameAt {s : State} {f : Frame} {a : BitVec 6} (b : Byte) (h : s.frameAt f .write a)
    (ha : ownRow a = false ∨ ignoredReset a b = true) (hne : a ≠ addrDataIn) :
    exec (.registerWrite b) s = .next { s.writeLocation a b with win := (s.writeLocation a b).win.movedTo f (a + 1#6) } := by
  have htest : (!ownRow a || ignoredReset a b) = true := by
    rcases ha with h | h <;> rw [h] <;> simp
  have hframe : s.writeFrame (fun a => !ownRow a || ignoredReset a b) = some f := writeFrame_of_frameAt h htest
  obtain ⟨-, -, haddr⟩ := h
  simp only [exec, execRegisterWrite, hframe, haddr]
  exact congrArg Host.Outcome.next (afterWrite_eq_movedTo _ haddr hne)

theorem readWrite_notOwn {a : BitVec 6} (h : readWrite a) : ownRow a = false ∧ a ≠ addrDataIn := by
  revert a
  decide

/-- Settles O23. -/
theorem registerWrite : Obligations.RegisterWrite := by
  refine ⟨fun s f a b hframe ha he => ?readWrite, fun s f a b hframe ha hnot => ?ignored, fun s f b hframe hb => ?reset,
    fun s f code hframe hroom => ?queued, fun s f code hframe hfull => ?overrun⟩
  case readWrite =>
    obtain ⟨hown, hne⟩ := readWrite_notOwn ha
    obtain ⟨hrest, hwin, hqueue, hcompletions, hflight, hexecuting⟩ := writeLocation_rest (s := s) b ha
    have hwindow := window_writeLocation b ha he
    have hlen : a.toNat < s.window.length := by
      rw [length_window]
      exact a.isLt
    refine ⟨_, exec_registerWrite_of_frameAt b hframe (.inl hown) hne, ?_, fun a' ha' => ?_, ?_, ?_, hqueue, hcompletions,
      hflight, hexecuting⟩
    · show byteAt (s.writeLocation a b).window a.toNat = _
      rw [hwindow, byteAt_set _ _ hlen, if_pos rfl]
    · show byteAt (s.writeLocation a b).window a'.toNat = _
      rw [hwindow, byteAt_set _ _ hlen, if_neg fun e => ha' (BitVec.eq_of_toNat_eq e.symm)]
    · conv_lhs => rw [hrest]
    · exact congrArg (fun w => Window.movedTo w f (a + 1#6)) hwin
  case ignored =>
    simp only [List.mem_cons, List.not_mem_nil, or_false, not_or] at hnot
    obtain ⟨h6, h7, h12, h15, h20, h27, h3f⟩ := hnot
    have hown : ownRow a = false := by simp [ownRow, h6, h7, h15, h20, h27, h3f]
    rw [exec_registerWrite_of_frameAt b hframe (.inl hown) h20, writeLocation_ignored b ha h12]
  case reset =>
    have hignored : ignoredReset 0x3F#6 b = true := by rw [ignoredReset, hb]; rfl
    rw [exec_registerWrite_of_frameAt b hframe (.inr hignored) (by decide),
      writeLocation_ignored b (by decide) (by decide)]
    rfl
  case queued =>
    have hoffer := offerCommand_queued code hroom
    refine ⟨_, exec_registerWrite_of_frameAt code hframe (.inl rfl) (by decide), ?_, ?_⟩
    · rw [writeLocation_go, hoffer]
      rfl
    · rw [writeLocation_go, hoffer]
      simp only [State.claimed, List.any_append, List.any_cons, List.any_nil, Bool.or_false]
      rfl
  case overrun =>
    rw [exec_registerWrite_of_frameAt code hframe (.inl rfl) (by decide), writeLocation_go,
      offerCommand_full code hfull]
    rfl

end Sys2Proof.Machine
end

section
/-! SUPPORT. Resets, and the automatic mount that follows them. -/

namespace Sys2Proof.Machine

set_option Elab.async false

/-! ### What the begin of an operation does to the array -/

theorem undefKind_markUndef (us : List (Nat × UndefKind)) (n : Nat) (u : UndefKind) (ln : Nat) :
    undefKind (markUndef us n u) ln = if n = ln then some u else undefKind us ln := by
  induction us with
  | nil => rfl
  | cons c rest ih =>
    obtain ⟨k, w⟩ := c
    rw [markUndef]
    split
    · rename_i hk
      rw [undefKind, undefKind, ih]
      by_cases hln : k = ln
      · rw [if_pos hln, if_pos hln, if_neg (by omega)]
      · rw [if_neg hln, if_neg hln]
    · split
      · rename_i hk
        rw [undefKind, undefKind]
        subst hk
        split <;> rfl
      · rw [undefKind]

theorem undefKind_append (us vs : List (Nat × UndefKind)) (ln : Nat) :
    undefKind (us ++ vs) ln = (undefKind us ln).or (undefKind vs ln) := by
  induction us with
  | nil => rfl
  | cons c rest ih =>
    obtain ⟨k, w⟩ := c
    rw [List.cons_append, undefKind, undefKind, ih]
    split <;> rfl

theorem undefKind_filter (us : List (Nat × UndefKind)) (p : Nat → Bool) (ln : Nat) :
    undefKind (us.filter (fun c => p c.1)) ln = if p ln then undefKind us ln else none := by
  induction us with
  | nil => simp [undefKind]
  | cons c rest ih =>
    obtain ⟨k, w⟩ := c
    rw [List.filter_cons, undefKind]
    by_cases hln : k = ln
    · subst hln
      by_cases hp : p k = true <;> simp [hp, undefKind, ih]
    · by_cases hp : p k = true <;> simp [hp, undefKind, ih, hln]

theorem undefKind_range (base n ln : Nat) :
    undefKind ((List.range n).map (fun i => (base + i, UndefKind.free))) ln =
      if base ≤ ln ∧ ln < base + n then some .free else none := by
  induction n with
  | zero =>
    rw [if_neg (by omega)]
    rfl
  | succ n ih =>
    rw [List.range_succ, List.map_append, undefKind_append, ih, List.map_singleton, undefKind, undefKind]
    by_cases h : base ≤ ln ∧ ln < base + n
    · rw [if_pos h, if_pos (show base ≤ ln ∧ ln < base + (n + 1) by omega)]
      rfl
    · rw [if_neg h, Option.none_or]
      by_cases h1 : base + n = ln
      · rw [if_pos h1, if_pos (by omega)]
      · rw [if_neg h1, if_neg (by omega)]

/-- What is known of a line once its sector's erase has begun. -/
theorem undefKind_undefSector (us : List (Nat × UndefKind)) (sec : SectorIx) (u : UndefKind) (ln : Nat) :
    undefKind (undefSector us sec u) ln =
      if inSector sec ln then some (if ln = sectorBase sec then u else .free) else undefKind us ln := by
  unfold undefSector
  rw [undefKind_append, undefKind_append, undefKind_filter us (fun n => decide (n < sectorBase sec)),
    undefKind_filter us (fun n => decide (sectorBase sec + Config.linesPerSector ≤ n)), undefKind, undefKind_range]
  have hlines : Config.linesPerSector = 256 := rfl
  by_cases hlow : ln < sectorBase sec
  · have hhigh : decide (sectorBase sec + Config.linesPerSector ≤ ln) = false := decide_eq_false (by omega)
    have hin : inSector sec ln = false := decide_eq_false (by omega)
    rw [decide_eq_true hlow, hhigh, hin, if_neg (show ¬ sectorBase sec = ln by omega),
      if_neg (show ¬ (sectorBase sec + 1 ≤ ln ∧ ln < sectorBase sec + 1 + 255) by omega)]
    simp
  · by_cases hhigh : sectorBase sec + Config.linesPerSector ≤ ln
    · have hin : inSector sec ln = false := decide_eq_false (by omega)
      rw [decide_eq_false hlow, decide_eq_true hhigh, hin, if_neg (show ¬ sectorBase sec = ln by omega),
        if_neg (show ¬ (sectorBase sec + 1 ≤ ln ∧ ln < sectorBase sec + 1 + 255) by omega)]
      simp
    · have hin : inSector sec ln = true := decide_eq_true (by omega)
      rw [decide_eq_false hlow, decide_eq_false hhigh, hin]
      by_cases hbase : sectorBase sec = ln
      · simp [hbase]
      · have hrange : sectorBase sec + 1 ≤ ln ∧ ln < sectorBase sec + 1 + 255 := by omega
        simp [hbase, hrange, Ne.symm hbase]

theorem sectorBase_eq (sec : SectorIx) : lineNo sec 0 = sectorBase sec := rfl

theorem inSector_lineNo (sec : SectorIx) {line : Nat} (h : line < 256) : inSector sec (lineNo sec line) = true := by
  unfold inSector sectorBase lineNo Config.linesPerSector
  rw [decide_eq_true_eq, Nat.mod_eq_of_lt h]
  omega

/-- What the begin of an operation makes of the array (R2, R3, R116, R132). -/
theorem beginsOn_beginFlash (s : State) (x : SlotId) (op : ArrayOp) :
    beginsOn s.flash (s.beginFlash x op) op (x = .m ∧ s.store.st = .mounting) := by
  refine ⟨fun sec line data hop => ?program, fun sec hop => ?erase⟩
  case program =>
    subst hop
    refine ⟨fun ln => mem_insertLine _ _ _, ⟨_, (undefKind_markUndef _ _ _ _).trans (if_pos rfl), ?_⟩,
      fun ln hln => ?_⟩
    · refine ⟨fun h0 => ?_, fun h1 hm => if_pos ⟨hm.1, h1, hm.2⟩, fun h0 h1 => ?_⟩
      · rw [if_neg fun ⟨_, hl, _⟩ => absurd (h0.symm.trans hl) (by decide), tornKind, if_pos h0]
      · rw [if_neg fun ⟨hx, hl, hst⟩ => h1 ⟨hl, hx, hst⟩, tornKind, if_neg h0]
    · exact (undefKind_markUndef _ _ _ _).trans (if_neg (Ne.symm hln))
  case erase =>
    subst hop
    have hkind (ln : Nat) : undefKind (s.beginFlash x (.erase sec)).undef ln =
        if inSector sec ln then some (if ln = sectorBase sec then .noEraseStamp else .free)
        else undefKind s.flash.undef ln :=
      undefKind_undefSector _ _ _ _
    refine ⟨rfl, ?_, fun line h0 h1 => ?_, fun ln hln => ?_⟩
    · rw [hkind, if_pos (inSector_lineNo sec (by decide)), sectorBase_eq, if_pos rfl]
    · have hne : lineNo sec line ≠ sectorBase sec := by
        unfold lineNo sectorBase Config.linesPerSector
        rw [Nat.mod_eq_of_lt h1]
        omega
      rw [hkind, if_pos (inSector_lineNo sec h1), if_neg hne]
    · rw [hkind, hln, if_neg Bool.false_ne_true]

theorem readLine_of_kind {s : State} {ln : Nat} {k : UndefKind} (h : undefKind s.flash.undef ln = some k) :
    s.readLine ln = (constrain k (freeBytes (Config.freeLine s.freeCount)), { s with freeCount := s.freeCount + 1 }) := by
  unfold State.readLine
  rw [h]
  rfl

theorem validEraseStamp_zeroLine : validEraseStamp zeroLine = none := by
  decide +kernel

theorem validEraseStamp_constrain (bs : List Byte) : validEraseStamp (constrain .noEraseStamp bs) = none := by
  unfold constrain
  simp only
  split
  · exact validEraseStamp_zeroLine
  · exact Option.not_isSome_iff_eq_none.mp ‹_›

/-! ### Which slot a grant starts -/

theorem beginErase_slot (s : State) (x : SlotId) (op : ArrayOp) (a : Sequencer) (y : SlotId) :
    (s.beginErase x op a).slot y = a.slot y := by
  cases op with
  | erase sec =>
    unfold State.beginErase
    simp only
    split
    · rw [askSuspend_slot]
      cases y <;> rfl
    · cases y <;> rfl
  | _ => rfl

theorem start_slot {s : State} {x : SlotId} {r : Request} (h : s.arr.slot x = some r) (n : Nat) (y : SlotId) :
    (s.start x n).arr.slot y = if y = x then some { r with inProgress := true } else s.arr.slot y := by
  unfold State.start
  rw [h]
  simp only
  rw [beginErase_slot]
  cases x <;> cases y <;> rfl

theorem eligible_waits {s : State} {x : SlotId} (h : s.eligible x = true) : ∃ op, waits s x op := by
  unfold State.eligible Sequencer.waiting at h
  cases hr : s.arr.slot x with
  | none => simp [hr] at h
  | some r =>
    obtain ⟨op, b⟩ := r
    simp only [hr, Bool.and_eq_true, Bool.not_eq_true'] at h
    obtain ⟨⟨⟨rfl, -⟩, -⟩, -⟩ := h
    exact ⟨op, hr⟩

/-- A grant starts one eligible slot's request, or leaves the slots and the array as they are (R107, R111). -/
theorem grant_cases (s : State) :
    (∃ x n, s.eligible x = true ∧ s.grant = s.start x n) ∨
      (s.grant.flash = s.flash ∧ ∀ x, s.grant.arr.slot x = s.arr.slot x) := by
  have stands (t : State) (h : t = s) : t.flash = s.flash ∧ ∀ x, t.arr.slot x = s.arr.slot x := by
    subst h
    exact ⟨rfl, fun _ => rfl⟩
  unfold State.grant
  split
  · exact .inr (stands _ rfl)
  · split
    · split
      · unfold State.grantSuspended
        split
        · exact .inl ⟨.h, _, ‹_›, rfl⟩
        · split
          · exact .inl ⟨.l, _, ‹_›, rfl⟩
          · exact .inr ⟨rfl, fun x => by cases x <;> rfl⟩
      · exact .inr (stands _ rfl)
    · split
      · rename_i h
        exact .inl ⟨.c, _, (Bool.and_eq_true _ _ ▸ h).1, rfl⟩
      · split
        · exact .inl ⟨.h, _, ‹_›, rfl⟩
        · split
          · exact .inl ⟨.l, _, ‹_›, rfl⟩
          · split
            · exact .inl ⟨.c, _, ‹_›, rfl⟩
            · split
              · exact .inl ⟨.m, _, ‹_›, rfl⟩
              · exact .inr (stands _ rfl)

theorem start_flash {s : State} {x : SlotId} {op : ArrayOp} (h : waits s x op) (n : Nat) :
    (s.start x n).flash = s.beginFlash x op := by
  unfold State.start
  rw [h]

/-- An operation that a grant began has marked its line or its sector (R116). -/
theorem grant_flash_of_performs {s : State} {x : SlotId} {op : ArrayOp} (hw : waits s x op) (hp : performs s.grant x op) :
    s.grant.flash = s.beginFlash x op := by
  rcases grant_cases s with ⟨y, n, he, e⟩ | ⟨-, hslots⟩
  · obtain ⟨op', hy⟩ := eligible_waits he
    by_cases hxy : x = y
    · subst hxy
      rw [e, start_flash hw]
    · have hslot := hp.2
      rw [e, start_slot hy, if_neg hxy, hw] at hslot
      exact nomatch hslot
  · have hslot := hp.2
    rw [hslots, hw] at hslot
    exact nomatch hslot

/-! ### Resets -/

theorem guardsAfterReset_power (g : Vector GuardSlot 8) : guardsAfterReset true g = Vector.replicate 8 GuardSlot.cleared := by
  unfold guardsAfterReset
  ext i hi : 1
  simp

theorem guardsAfterReset_other (g : Vector GuardSlot 8) :
    guardsAfterReset false g = g.map (fun x => if x.fixed then x else GuardSlot.cleared) := by
  unfold guardsAfterReset
  simp only [Bool.not_false, Bool.and_true]

theorem resetBlocks_flash_of_exec {c : Instr} {s t : State} (hc : c = .powerOnReset ∨ c = .resetAsserted)
    (h : exec c s = .next t) : t.flash = s.flash := by
  rcases hc with rfl | rfl
  · exact stands_of_next h ▸ rfl
  · unfold exec execResetAsserted at h
    simp only at h
    split at h <;> exact stands_of_next h ▸ rfl

/-- Settles O17: a reset is the reset state around what it keeps, and the begin of an operation has marked what a cut
leaves. -/
theorem resets : Obligations.Resets := by
  refine ⟨fun s => ?power, fun s hlow => ?asserted, fun s hlow => ?already, fun s t x c op hw hp hc hn => ?cut⟩
  case power =>
    have hguards := guardsAfterReset_power s.guards
    show Host.Outcome.next ((s.setVcc false).resetBlocks true) = _
    unfold State.resetBlocks
    rw [show (s.setVcc false).guards = s.guards from rfl, hguards]
    rfl
  case asserted =>
    have hguards := guardsAfterReset_other s.guards
    have hexec : exec .resetAsserted s = .next ((s.setReset true).resetBlocks false) := by
      simp [exec, execResetAsserted, hlow]
    rw [hexec]
    unfold State.resetBlocks
    rw [show (s.setReset true).guards = s.guards from rfl, hguards]
    rfl
  case already => simp [exec, execResetAsserted, hlow]
  case cut =>
    have hflash : t.flash = s.beginFlash x op :=
      (resetBlocks_flash_of_exec hc hn).trans (grant_flash_of_performs hw hp)
    obtain ⟨hprogram, herase⟩ := beginsOn_beginFlash s x op
    rw [← hflash] at hprogram herase
    refine ⟨fun sec line data hop => ?_, fun sec hop => ?_⟩
    · obtain ⟨hwritten, ⟨k, hk, htorn, -, -⟩, -⟩ := hprogram sec line data hop
      refine ⟨(hwritten _).mpr (.inl rfl), by simp only; rw [hk]; exact Option.some_ne_none k, fun hline => ?_⟩
      subst hline
      rw [readLine_of_kind hk, htorn rfl]
      exact validEraseStamp_constrain _
    · obtain ⟨-, hzero, hothers, -⟩ := herase sec hop
      refine ⟨fun ln hln => ?_, ?_⟩
      · have hln' : lineNo sec (ln - sectorBase sec) = ln ∧ ln - sectorBase sec < 256 := by
          unfold inSector at hln
          rw [decide_eq_true_eq] at hln
          unfold sectorBase lineNo Config.linesPerSector at *
          omega
        rw [← hln'.1]
        by_cases h0 : ln - sectorBase sec = 0
        · simp only
          rw [h0, hzero]
          exact Option.some_ne_none _
        · simp only
          rw [hothers _ (Nat.pos_of_ne_zero h0) hln'.2]
          exact Option.some_ne_none _
      · rw [readLine_of_kind hzero]
        exact validEraseStamp_constrain _

/-! ### The automatic mount -/

/-- The automatic mount that begins on an idle Sequencer, and its first grant (R121, R122). -/
theorem beginMount_grant {s : State} (ha : s.arr = Sequencer.reset) (hp : s.pins.pfailLow = false) :
    (s.beginMount .automatic).grant = mountBegun s s.pins := by
  obtain ⟨flash, sectors, dir, lw, tm, eng, arr, store, guards, settings, cu, win, ⟨low, pfail, vcc⟩, free, pending⟩ := s
  subst ha
  subst hp
  rfl

/-- While PFAIL# is asserted the mount is aborted as it begins (R132). -/
theorem beginMount_cut {s : State} (ha : s.arr = Sequencer.reset) (hp : s.pins.pfailLow = true) :
    (s.beginMount .automatic).grant = mountCut s s.pins := by
  obtain ⟨flash, sectors, dir, lw, tm, eng, arr, store, guards, settings, cu, win, ⟨low, pfail, vcc⟩, free, pending⟩ := s
  subst ha
  subst hp
  rfl

theorem endReset_of_held {s : State} (ha : s.arr = Sequencer.reset) (h : s.heldInReset = true) : s.endReset.grant = s := by
  rw [State.endReset, if_pos h, grant_of_reset ha]

theorem endReset_grant {s : State} (ha : s.arr = Sequencer.reset) (h : s.heldInReset = false) :
    s.endReset.grant = if s.pins.pfailLow then mountCut s s.pins else mountBegun s s.pins := by
  rw [State.endReset, h, if_neg Bool.false_ne_true]
  cases hp : s.pins.pfailLow with
  | true => exact beginMount_cut ha hp
  | false => exact beginMount_grant ha hp

/-- Settles O18. -/
theorem releaseBeginsMount : Obligations.ReleaseBeginsMount := by
  refine ⟨fun s hp ha => ?_, fun s hp ha => ?_, fun s hp ha => ?_, fun s hp ha => ?_, fun s hlow hvcc ha => ⟨?_, ?_⟩⟩
  · have hexec : exec .resetReleased s = .next (s.setReset false).endReset.grant := by
      simp [exec, execResetReleased, hp]
    rw [hexec, endReset_grant (s := s.setReset false) ha (by simp [State.heldInReset, State.setReset, hp])]
    simp [State.setReset, hp, mountBegun]
  · have hexec : exec .vccInOperatingRange s = .next (s.setVcc true).endReset.grant := by
      simp [exec, execVccInOperatingRange, hp]
    rw [hexec, endReset_grant (s := s.setVcc true) ha (by simp [State.heldInReset, State.setVcc, hp])]
    simp [State.setVcc, hp, mountBegun]
  · have hexec : exec .resetReleased s = .next (s.setReset false).endReset.grant := by
      simp [exec, execResetReleased, hp]
    rw [hexec, endReset_grant (s := s.setReset false) ha (by simp [State.heldInReset, State.setReset, hp])]
    simp [State.setReset, hp, mountCut, mountBegun]
  · have hexec : exec .vccInOperatingRange s = .next (s.setVcc true).endReset.grant := by
      simp [exec, execVccInOperatingRange, hp]
    rw [hexec, endReset_grant (s := s.setVcc true) ha (by simp [State.heldInReset, State.setVcc, hp])]
    simp [State.setVcc, hp, mountCut, mountBegun]
  · have hexec : exec .resetReleased s = .next (s.setReset false).endReset.grant := by
      simp [exec, execResetReleased, hlow]
    rw [hexec, endReset_of_held (s := s.setReset false) ha (by simp [State.heldInReset, State.setReset, hvcc])]
    rfl
  · have hexec : exec .vccInOperatingRange s = .next (s.setVcc true).endReset.grant := by
      simp [exec, execVccInOperatingRange, hvcc]
    rw [hexec, endReset_of_held (s := s.setVcc true) ha (by simp [State.heldInReset, State.setVcc, hlow])]
    rfl

/-- Settles O19. -/
theorem softReset : Obligations.SoftReset := by
  refine ⟨fun s f b hframe hb => ?resets, fun s f b hframe hb => ?ignored⟩
  case resets =>
    have hsome : s.writeFrame (fun a => decide (a = 0x3F#6)) = some f := writeFrame_of_frameAt hframe (decide_eq_true rfl)
    have hguards := guardsAfterReset_other s.guards
    have hexec : exec (.softReset b) s =
        .next (((s.resetBlocks false).setPort .waitHigh (some 0#8)).beginMount .automatic).grant := by
      simp only [exec, execSoftReset, hsome, hb, if_true]
    have hreset : (s.resetBlocks false).setPort .waitHigh (some 0#8) =
        { State.reset with
          flash := s.flash
          guards := s.guards.map (fun g => if g.fixed then g else GuardSlot.cleared)
          win := { Window.reset with port := .waitHigh, sdo := some 0#8 }
          pins := s.pins
          freeCount := s.freeCount
          pending := s.pending } := by
      rw [← hguards]
      rfl
    rw [hexec, hreset]
    cases hp : s.pins.pfailLow with
    | true => exact congrArg Host.Outcome.next (beginMount_cut rfl hp)
    | false => exact congrArg Host.Outcome.next (beginMount_grant rfl hp)
  case ignored =>
    have hsome : s.writeFrame (fun a => decide (a = 0x3F#6)) = some f := writeFrame_of_frameAt hframe (decide_eq_true rfl)
    have hexec : exec (.softReset b) s = .next (s.afterWrite f) := by
      simp only [exec, execSoftReset, hsome, hb, Bool.false_eq_true, if_false]
    rw [hexec, afterWrite_eq_movedTo s hframe.2.2 (by decide)]
    rfl

end Sys2Proof.Machine
end

section
/-! SUPPORT. The grant and the suspension of an erase. -/

namespace Sys2Proof.Machine

set_option Elab.async false

/-! ### What may be granted -/

theorem writeBar_isSome_iff {s : State} : s.writeBar.isSome = true ↔ barHolds s := by
  unfold State.writeBar barHolds
  cases hp : s.pins.pfailLow <;> cases hs : s.store.st <;> simp

theorem occupied_iff {a : Sequencer} {sec : SectorIx} :
    a.occupied sec = true ↔ ∃ y r, a.slot y = some r ∧ r.op.readsSector = some sec := by
  unfold Sequencer.occupied
  constructor
  · intro h
    obtain ⟨o, ho, hr⟩ := List.any_eq_true.mp h
    obtain ⟨y, hy⟩ : ∃ y, a.slot y = o := by
      simp only [List.mem_cons, List.not_mem_nil, or_false] at ho
      rcases ho with rfl | rfl | rfl | rfl
      · exact ⟨.h, rfl⟩
      · exact ⟨.l, rfl⟩
      · exact ⟨.c, rfl⟩
      · exact ⟨.m, rfl⟩
    cases o with
    | none => exact nomatch hr
    | some r => exact ⟨y, r, hy, of_decide_eq_true hr⟩
  · rintro ⟨y, r, hy, hr⟩
    refine List.any_eq_true.mpr ⟨some r, ?_, decide_eq_true hr⟩
    rw [← hy]
    cases y <;> simp [Sequencer.slot]

theorem heldErase_iff {s : State} {x : SlotId} {op : ArrayOp} (h : waits s x op) :
    s.arr.heldErase x = true ↔ eraseHeld s op := by
  unfold Sequencer.heldErase
  rw [h]
  cases op with
  | erase sec =>
    simp only [occupied_iff]
    exact ⟨fun ⟨y, r, hy, hr⟩ => ⟨sec, y, r, rfl, hy, hr⟩, fun ⟨_, y, r, e, hy, hr⟩ => by cases e; exact ⟨y, r, hy, hr⟩⟩
  | program sec line data => exact ⟨fun e => (nomatch e), fun ⟨_, _, _, e, _⟩ => nomatch e⟩
  | readRecord sec line len => exact ⟨fun e => (nomatch e), fun ⟨_, _, _, e, _⟩ => nomatch e⟩
  | readLines sec line n => exact ⟨fun e => (nomatch e), fun ⟨_, _, _, e, _⟩ => nomatch e⟩

theorem admitsM_iff {s : State} {op : ArrayOp} (h : waits s .m op) : s.admitsM = true ↔
    (s.store.st = .mounting ∨ s.store.st = .formatting ∨ op.isWrite = false) ∧
      s.arr.h = none ∧ s.arr.l = none ∧ s.arr.c = none ∧ ∀ e, s.arr.erase = some e → e.slot = .m := by
  have hm : s.arr.m = some { op := op, inProgress := false } := h
  unfold State.admitsM
  rw [hm]
  cases herase : s.arr.erase <;>
    simp [Option.isNone_iff_eq_none, or_assoc, and_assoc]

/-- An eligible request is one that may be granted (R107). -/
theorem eligible_iff {s : State} {x : SlotId} : s.eligible x = true ↔ grantable s x := by
  constructor
  · intro h
    obtain ⟨op, hw⟩ := eligible_waits h
    unfold State.eligible at h
    rw [hw] at h
    simp only [Bool.and_eq_true, Bool.not_eq_true', Bool.or_eq_true, decide_eq_true_eq] at h
    obtain ⟨⟨⟨-, hheld⟩, hbar⟩, hm⟩ := h
    refine ⟨op, hw, fun he => ?_, fun hwrite hb => ?_, fun hx => ?_⟩
    · rw [(heldErase_iff hw).mpr he] at hheld
      exact nomatch hheld
    · rw [hwrite, writeBar_isSome_iff.mpr hb] at hbar
      exact nomatch hbar
    · subst hx
      exact (admitsM_iff hw).mp (hm.resolve_left fun hne => hne rfl)
  · rintro ⟨op, hw, hheld, hbar, hm⟩
    have hwaiting : s.arr.waiting x = true := by
      unfold Sequencer.waiting
      rw [hw]
      rfl
    have hfree : s.arr.heldErase x = false := Bool.eq_false_iff.mpr fun he => hheld ((heldErase_iff hw).mp he)
    have hopen : (op.isWrite && s.writeBar.isSome) = false := by
      cases hwrite : op.isWrite with
      | false => rfl
      | true => exact Bool.eq_false_iff.mpr fun hb => hbar hwrite (writeBar_isSome_iff.mp hb)
    have hadmits : (decide (x ≠ .m) || s.admitsM) = true := by
      by_cases hx : x = .m
      · subst hx
        rw [(admitsM_iff hw).mpr (hm rfl), Bool.or_true]
      · rw [decide_eq_true hx, Bool.true_or]
    unfold State.eligible
    rw [hwaiting, hfree, hw, hadmits]
    simp only [hopen]
    rfl

/-! ### What a grant to a slot makes -/

/-- A request that has become the operation in progress waits no longer; every other slot is as it was. -/
theorem waiting_begun (a : Sequencer) (x y : SlotId) (op : ArrayOp) (b : Option SlotId) (n : Nat) :
    ({ a.setSlot x (some { op := op, inProgress := true }) with busy := b, aging := n } : Sequencer).waiting y =
      (decide (x ≠ y) && a.waiting y) := by
  cases x <;> cases y <;> rfl

/-- The erase that begins is SUSPENDING at once when H or L waits and the limit lets it (R110). -/
theorem beginErase_erase (s : State) (x : SlotId) (sec : SectorIx) (n : Nat) :
    s.beginErase x (.erase sec)
        { s.arr.setSlot x (some { op := .erase sec, inProgress := true }) with busy := some x, aging := n } =
      { s.arr.setSlot x (some { op := .erase sec, inProgress := true }) with
        busy := some x, aging := n, erase := some (eraseBegun s x) } := by
  unfold State.beginErase
  simp only [waiting_begun]
  by_cases hwait : (x ≠ .h ∧ s.arr.waiting .h = true) ∨ (x ≠ .l ∧ s.arr.waiting .l = true)
  · have hcond : (decide (x ≠ .h) && s.arr.waiting .h || decide (x ≠ .l) && s.arr.waiting .l) = true := by
      simpa only [Bool.or_eq_true, Bool.and_eq_true, decide_eq_true_eq] using hwait
    rw [if_pos hcond]
    unfold Sequencer.askSuspend eraseBegun
    by_cases hlimit : 0 < s.settings.suspendLimit
    · have hat : suspendsAtOnce s x := ⟨hwait, hlimit⟩
      rw [if_pos hat, if_pos hat]
      exact if_pos ⟨rfl, hlimit⟩
    · have hat : ¬ suspendsAtOnce s x := fun h => hlimit h.2
      rw [if_neg hat, if_neg hat]
      exact if_neg fun h => hlimit h.2
  · have hcond : ¬ (decide (x ≠ .h) && s.arr.waiting .h || decide (x ≠ .l) && s.arr.waiting .l) = true := by
      simpa only [Bool.or_eq_true, Bool.and_eq_true, decide_eq_true_eq] using hwait
    have hat : ¬ suspendsAtOnce s x := fun h => hwait h.1
    rw [if_neg hcond, eraseBegun, if_neg hat, if_neg hat]

/-- The erase once an operation has begun: its own when it is an ERASE, and the one begun before otherwise (R110). -/
def State.eraseOnce (s : State) (x : SlotId) : ArrayOp → Option EraseRun
  | .erase _ => some (eraseBegun s x)
  | _ => s.arr.erase

theorem start_arr {s : State} {x : SlotId} {op : ArrayOp} (h : waits s x op) (n : Nat) :
    (s.start x n).arr = { s.arr.setSlot x (some { op := op, inProgress := true }) with
      busy := some x
      aging := n
      erase := s.eraseOnce x op } := by
  unfold State.start
  rw [h]
  cases op with
  | erase sec => exact beginErase_erase s x sec n
  | _ => cases x <;> rfl

/-- A grant that starts an eligible slot's request goes to that slot (R107). -/
theorem grantsTo_of_start {s : State} {x : SlotId} {n : Nat} (h : grantable s x) (hs : s.grant = s.start x n) :
    grantsTo s x n := by
  obtain ⟨op, hw, -⟩ := h
  have hflash : s.grant.flash = s.beginFlash x op := hs ▸ start_flash hw n
  refine ⟨op, hw, (granted s).rest, ?_, fun hread => ?_, fun ln i _ _ => grant_byte s ln i, ?_⟩
  · rw [hs, start_arr hw n]
    cases op <;> rfl
  · rw [hflash, beginFlash_read s x op hread]
  · rw [hflash]
    exact beginsOn_beginFlash s x op

theorem not_eligible {s : State} {x : SlotId} (h : ¬ grantable s x) : s.eligible x = false :=
  Bool.eq_false_iff.mpr fun he => h (eligible_iff.mp he)

/-! ### The order of grants -/

/-- With nothing in progress and no erase begun the grant follows the fixed priority, aging apart (R107, R108). -/
theorem grant_idle {s : State} (hb : s.arr.busy = none) (he : s.arr.erase = none) : s.grant =
    (if s.eligible .c && decide (Config.agingLimit ≤ s.arr.aging) then s.start .c 0
      else if s.eligible .h then s.start .h s.aged
      else if s.eligible .l then s.start .l s.aged
      else if s.eligible .c then s.start .c 0
      else if s.eligible .m then s.start .m s.arr.aging
      else s) := by
  unfold State.grant
  rw [hb, he]

theorem grant_suspended {s : State} {e : EraseRun} (hb : s.arr.busy = none) (he : s.arr.erase = some e)
    (hc : e.cond = .suspended) : s.grant = s.grantSuspended e := by
  unfold State.grant
  rw [hb, he]
  exact if_pos hc

theorem grant_not_suspended {s : State} {e : EraseRun} (hb : s.arr.busy = none) (he : s.arr.erase = some e)
    (hc : e.cond ≠ .suspended) : s.grant = s := by
  unfold State.grant
  rw [hb, he]
  exact if_neg hc

theorem aged_eq {s : State} {n : Nat} (h1 : grantable s .c → n = min 8 (s.arr.aging + 1))
    (h2 : ¬ grantable s .c → n = s.arr.aging) : s.aged = n := by
  unfold State.aged
  by_cases hc : grantable s .c
  · rw [if_pos (eligible_iff.mpr hc), h1 hc]
    rfl
  · rw [if_neg fun he => hc (eligible_iff.mp he), h2 hc]

/-! ### Placing and dropping -/

theorem place_refused {s : State} {x : SlotId} {op : ArrayOp} {st : Status} (hop : op.isWrite = true)
    (hbar : s.writeBar = some st) : s.place x op = (s, some st) := by
  unfold State.place
  rw [hop, if_pos rfl, hbar]

theorem place_joins {s : State} {x : SlotId} {op : ArrayOp} (h : op.isWrite = false ∨ ¬ barHolds s) :
    s.place x op = ({ s with arr := s.arr.put x op }, none) := by
  unfold State.place
  have hnone : (if op.isWrite = true then s.writeBar else none) = none := by
    split
    · rename_i hop
      have hbar : ¬ barHolds s := h.resolve_left fun e => nomatch hop.symm.trans e
      exact Option.not_isSome_iff_eq_none.mp fun hs => hbar (writeBar_isSome_iff.mp hs)
    · rfl
  rw [hnone]

theorem put_suspends {a : Sequencer} {x : SlotId} {op : ArrayOp} {e : EraseRun} (he : a.erase = some e)
    (hx : x = .h ∨ x = .l) (hc : e.cond = .running) (hlim : e.suspensions < e.limit) :
    a.put x op = { a.setSlot x (some { op := op, inProgress := false }) with
      erase := some { e with cond := .suspending, suspensions := e.suspensions + 1 } } := by
  unfold Sequencer.put
  rcases hx with rfl | rfl <;> simp [Sequencer.askSuspend, Sequencer.setSlot, he, hc, hlim]

theorem put_joins {a : Sequencer} {x : SlotId} {op : ArrayOp}
    (h : ∀ e, a.erase = some e → x = .c ∨ x = .m ∨ e.cond ≠ .running ∨ e.limit ≤ e.suspensions) :
    a.put x op = a.setSlot x (some { op := op, inProgress := false }) := by
  have hask (hx : x ≠ .c ∧ x ≠ .m) (b : Sequencer) (hb : b.erase = a.erase) : b.askSuspend = b := by
    unfold Sequencer.askSuspend
    rw [hb]
    cases he : a.erase with
    | none => rfl
    | some e =>
      have hno : ¬ (e.cond = .running ∧ e.suspensions < e.limit) := fun ⟨hr, hl⟩ => by
        rcases h e he with hc | hm | hn | hn
        · exact hx.1 hc
        · exact hx.2 hm
        · exact hn hr
        · exact absurd hl (Nat.not_lt.mpr hn)
      exact if_neg hno
  cases x with
  | h => exact hask ⟨by decide, by decide⟩ _ rfl
  | l => exact hask ⟨by decide, by decide⟩ _ rfl
  | c => rfl
  | m => rfl

/-- Settles O21: the order of the grants over `grantable`, and what a grant, a placing and the bar make of a slot. -/
theorem grantAndSuspension : Obligations.GrantAndSuspension := by
  refine ⟨fun s x => eligible_iff, fun s hb => ?busy, fun s hb he => ?idle, fun s e hb he => ?suspended,
    fun s x op => ?placed, fun s hw => ?dropped⟩
  case busy =>
    obtain ⟨x, hx⟩ := Option.ne_none_iff_exists'.mp hb
    exact grant_of_busy hx
  case idle =>
    have hgrant := grant_idle hb he
    refine ⟨fun ⟨hc, hage⟩ => ?_, fun n haged h1 h2 => ?_, fun hh hl => ?_⟩
    · refine grantsTo_of_start hc (hgrant.trans (if_pos ?_))
      rw [eligible_iff.mpr hc, Bool.true_and]
      exact decide_eq_true hage
    · have hfirst : ¬ (s.eligible .c && decide (Config.agingLimit ≤ s.arr.aging)) = true := fun hc => by
        obtain ⟨hc, hage⟩ := Bool.and_eq_true _ _ ▸ hc
        exact haged ⟨eligible_iff.mp hc, of_decide_eq_true hage⟩
      rw [if_neg hfirst, aged_eq h1 h2] at hgrant
      refine ⟨fun hh => grantsTo_of_start hh (hgrant.trans (if_pos (eligible_iff.mpr hh))), fun hh hl => ?_⟩
      rw [not_eligible hh, if_neg Bool.false_ne_true, if_pos (eligible_iff.mpr hl)] at hgrant
      exact grantsTo_of_start hl hgrant
    · rw [not_eligible hh, not_eligible hl, if_neg (c := (false = true)) Bool.false_ne_true,
        if_neg (c := (false = true)) Bool.false_ne_true] at hgrant
      refine ⟨fun hc => ?_, fun hc hm => ?_, fun hc hm => ?_⟩
      · rw [if_pos (eligible_iff.mpr hc), ite_self] at hgrant
        exact grantsTo_of_start hc hgrant
      · rw [not_eligible hc, Bool.false_and, if_neg Bool.false_ne_true, if_neg Bool.false_ne_true,
          if_pos (eligible_iff.mpr hm)] at hgrant
        exact grantsTo_of_start hm hgrant
      · rw [not_eligible hc, not_eligible hm, Bool.false_and] at hgrant
        exact hgrant
  case suspended =>
    refine ⟨fun hc => ?_, fun hc => grant_not_suspended hb he hc⟩
    have hgrant := grant_suspended hb he hc
    unfold State.grantSuspended at hgrant
    refine ⟨fun hh => grantsTo_of_start hh (hgrant.trans (if_pos (eligible_iff.mpr hh))), fun hh hl => ?_, fun hh hl => ?_⟩
    · rw [not_eligible hh, if_neg Bool.false_ne_true, if_pos (eligible_iff.mpr hl)] at hgrant
      exact grantsTo_of_start hl hgrant
    · rw [not_eligible hh, not_eligible hl] at hgrant
      exact hgrant
  case placed =>
    refine ⟨fun hop => ⟨fun hbar => ?_, fun hp hs => ?_, fun hp hs => ?_⟩, fun hfree => ⟨fun e he hx hc hlim => ?_, fun he => ?_⟩⟩
    · refine place_refused hop ?_
      unfold State.writeBar
      rcases hbar with h | h <;> simp [h]
    · exact place_refused hop (by simp [State.writeBar, hp, hs])
    · exact place_refused hop (by simp [State.writeBar, hp, hs])
    · rw [place_joins hfree, put_suspends he hx hc hlim]
    · rw [place_joins hfree, put_joins he]
  case dropped =>
    unfold State.dropWaiting
    rw [if_pos hw]
    exact ⟨rfl, rfl⟩

end Sys2Proof.Machine
end

section
/-! SUPPORT. Fields read back from the bytes that hold them: stamps, records and the settings payload. -/

namespace Sys2Proof.Machine

set_option Elab.async false

/-! ### Fields -/

theorem byteAt_append_right (xs ys : List Byte) (i : Nat) : byteAt (xs ++ ys) (xs.length + i) = byteAt ys i := by
  unfold byteAt
  rw [List.getD_append_right _ _ _ _ (Nat.le_add_right _ _), Nat.add_sub_cancel_left]

theorem field16_of_bytes {bs : List Byte} {i n : Nat} (h0 : byteAt bs i = BitVec.ofNat 8 (n / 256))
    (h1 : byteAt bs (i + 1) = BitVec.ofNat 8 n) (hn : n < 65536) : field16 bs i = n := by
  unfold field16
  rw [h0, h1, BitVec.toNat_ofNat, BitVec.toNat_ofNat]
  omega

theorem field32_of_bytes {bs : List Byte} {i n : Nat} (h0 : byteAt bs i = BitVec.ofNat 8 (n / 16777216))
    (h1 : byteAt bs (i + 1) = BitVec.ofNat 8 (n / 65536)) (h2 : byteAt bs (i + 2) = BitVec.ofNat 8 (n / 256))
    (h3 : byteAt bs (i + 2 + 1) = BitVec.ofNat 8 n) (hn : n < 4294967296) : field32 bs i = n := by
  unfold field32 field16
  rw [h0, h1, h2, h3, BitVec.toNat_ofNat, BitVec.toNat_ofNat, BitVec.toNat_ofNat, BitVec.toNat_ofNat]
  omega

/-- The check code behind some bytes verifies, whatever follows it (R8). -/
theorem checkVerifies_withCheck (bs tail : List Byte) : checkVerifies (withCheck bs ++ tail) bs.length = true := by
  have hcrc := (crc16 bs).isLt
  have hfield : field16 (withCheck bs ++ tail) bs.length = (crc16 bs).toNat := by
    unfold withCheck
    rw [List.append_assoc]
    exact field16_of_bytes (byteAt_append_right bs _ 0) (byteAt_append_right bs _ 1) hcrc
  have htake : (withCheck bs ++ tail).take bs.length = bs := by
    unfold withCheck
    rw [List.append_assoc, List.take_left']
    rfl
  unfold checkVerifies
  rw [hfield, htake]
  exact beq_self_eq_true _

/-! ### Stamps -/

theorem eraseStampLine_check (g n : Nat) : checkVerifies (eraseStampLine g n) 10 = true :=
  checkVerifies_withCheck (be32 Config.formatMark ++ be16 g ++ be32 n) _

theorem openStampLine_check (a q : Nat) : checkVerifies (openStampLine a q) 8 = true :=
  checkVerifies_withCheck (be32 a ++ be32 q) _

/-- The pad of an open stamp's line keeps it from reading as a blank line. -/
theorem openStampLine_not_blank (a q : Nat) : isBlankLine (openStampLine a q) = false := by
  refine Bool.eq_false_iff.mpr fun h => ?_
  have hpad : (0#8 : Byte) ∈ (openStampLine a q).take Config.lineBytes := by
    show (0#8 : Byte) ∈ withCheck (be32 a ++ be32 q) ++ List.replicate 6 0#8
    exact List.mem_append_right _ (by decide)
  exact absurd (List.all_eq_true.mp h _ hpad) (by decide)

/-- Settles O15. -/
theorem stampsRoundTrip : Obligations.StampsRoundTrip := by
  refine ⟨fun g n hg1 hg hn1 hn => ⟨rfl, ?erase⟩, fun a q ha1 ha hq1 hq => ⟨rfl, ?opening⟩, ?blankErase, ?blankOpen⟩
  case erase =>
    have hmark : field32 (eraseStampLine g n) 0 = Config.formatMark := field32_of_bytes rfl rfl rfl rfl (by decide)
    have hgen : field16 (eraseStampLine g n) 4 = g := field16_of_bytes rfl rfl (by omega)
    have hcount : field32 (eraseStampLine g n) 6 = n := field32_of_bytes rfl rfl rfl rfl (by omega)
    have hlimit : 1 ≤ n ∧ n ≤ Config.enduranceLimit := ⟨hn1, hn⟩
    unfold validEraseStamp
    rw [eraseStampLine_check, hmark, hgen, hcount]
    simp [hg1, hlimit]
  case opening =>
    have hact : field32 (openStampLine a q) 0 = a := field32_of_bytes rfl rfl rfl rfl (by omega)
    have hseq : field32 (openStampLine a q) 4 = q := field32_of_bytes rfl rfl rfl rfl (by omega)
    unfold judgeOpenStamp
    rw [openStampLine_not_blank, openStampLine_check, hact, hseq]
    simp [ha1, hq1]
  case blankErase => decide +kernel
  case blankOpen => decide +kernel

/-! ### Records -/

theorem bytes_eq (r : Record) : ∃ pad, r.bytes = r.header ++ (r.payload ++ (be16 (crc16 (r.header ++ r.payload)).toNat ++ pad)) := by
  unfold Record.bytes padTo withCheck
  simp only [List.append_assoc]
  exact ⟨_, rfl⟩

theorem ofCode_code (k : RecKind) : RecKind.ofCode k.code = some k := by
  cases k <;> rfl

theorem flagsByte_bits (a b : Bool) : (flagsByte a b).getLsbD 0 = a ∧ (flagsByte a b).getLsbD 1 = b := by
  cases a <;> cases b <;> decide

/-- What the bytes of a record are parsed into is the record, where its numbers fit their fields (R181). -/
theorem parseRecord_bytes {r : Record} (hlen : r.length ≤ 242) (htxn : r.txn ≤ 65535) (hseq : r.seq ≤ 0xFFFFFFFE) :
    parseRecord r.bytes = some r := by
  have at_ {i : Nat} (h : i < 12) : byteAt r.bytes i = byteAt r.header i := byteAt_bytes_of_header r h
  have hkind : byteAt r.bytes 0 = r.kind.code := at_ (by decide)
  have hflags : byteAt r.bytes 1 = flagsByte r.solo r.relocated := at_ (by decide)
  have hkey : field16 r.bytes 2 = r.key.toNat :=
    field16_of_bytes (at_ (i := 2) (by decide)) (at_ (i := 3) (by decide)) r.key.isLt
  have hlength : (byteAt r.bytes 4).toNat = r.length := by
    rw [show byteAt r.bytes 4 = BitVec.ofNat 8 r.length from at_ (by decide), BitVec.toNat_ofNat]
    omega
  have htxn' : field16 r.bytes 6 = r.txn :=
    field16_of_bytes (at_ (i := 6) (by decide)) (at_ (i := 7) (by decide)) (by omega)
  have hseq' : field32 r.bytes 8 = r.seq :=
    field32_of_bytes (at_ (i := 8) (by decide)) (at_ (i := 9) (by decide)) (at_ (i := 10) (by decide))
      (at_ (i := 11) (by decide)) (by omega)
  have hpayload : (r.bytes.drop 12).take r.length = r.payload := by
    obtain ⟨pad, hbytes⟩ := bytes_eq r
    rw [hbytes, List.drop_left' (length_header r)]
    exact List.take_left' rfl
  unfold parseRecord
  rw [hkind, ofCode_code, hflags, (flagsByte_bits _ _).1, (flagsByte_bits _ _).2, hkey, hlength, htxn', hseq', hpayload,
    BitVec.ofNat_toNat, BitVec.setWidth_eq]

/-- The check code of a record's lines verifies (R8, R103). -/
theorem recordCheckOk_bytes {r : Record} (hlen : r.length ≤ 242) : recordCheckOk r.bytes r.lines = true := by
  have hlength : (byteAt r.bytes 4).toNat = r.length := by
    rw [show byteAt r.bytes 4 = BitVec.ofNat 8 r.length from byteAt_bytes_of_header r (by decide), BitVec.toNat_ofNat]
    omega
  have hcheck : checkVerifies r.bytes (12 + r.length) = true := by
    have h := checkVerifies_withCheck (r.header ++ r.payload)
    rw [List.length_append, length_header] at h
    exact h _
  unfold recordCheckOk
  rw [hlength, hcheck]
  have hfits : linesFor r.length ≤ r.lines := Nat.le_refl _
  have hmax : r.length ≤ Config.maxLength := hlen
  simp [hfits, hmax]

theorem fieldsFit_length {r : Record} (h : r.fieldsFit = true) : r.length ≤ 242 := by
  have hmax : Config.maxLength = 242 := rfl
  unfold Record.fieldsFit at h
  cases hk : r.kind <;> rw [hk] at h <;> simp only [Bool.and_eq_true, decide_eq_true_eq] at h <;> omega

/-- Settles O13: a parse gives the record back, and its fields pass every test of R9. -/
theorem recordRoundTrip : Obligations.RecordRoundTrip := by
  intro r p hfit hoperands hrel hkind htxn hseq1 hseq hfits
  have hlen := fieldsFit_length hfit
  have hlines : (byteAt r.bytes 5).toNat = r.lines := byteAt_bytes_lines hlen
  have hsolo : (!r.relocated || r.solo) = true := by
    cases hr : r.relocated with
    | false => rfl
    | true => rw [hrel hr]; rfl
  have hkinds : (r.solo || r.kind == .value || r.kind == .tombstone) = true := by
    cases hs : r.solo with
    | true => rfl
    | false => rcases hkind hs with e | e <;> rw [e] <;> rfl
  have hroom : p + r.lines - 1 ≤ 255 := by omega
  have hnumber : 1 ≤ r.seq ∧ r.seq < Config.maxSequenceCounter := ⟨hseq1, Nat.lt_succ_of_le hseq⟩
  unfold validRecordAt
  simp only [parseRecord_bytes hlen htxn hseq, hsolo, hkinds, hfit, hlines, hroom, hnumber, hoperands,
    recordCheckOk_bytes hlen, decide_true, Bool.and_true, and_self, if_true]

/-! ### The settings payload -/

theorem byteAt_image (g : GuardSlot) : field16 g.image 0 = g.low.toNat ∧ field16 g.image 2 = g.high.toNat ∧
    (byteAt g.image 4).toNat = g.mode.code ∧ (byteAt g.image 5).getLsbD 0 = g.inUse ∧
      (byteAt g.image 5).getLsbD 1 = g.fixed := by
  refine ⟨field16_of_bytes rfl rfl g.low.isLt, field16_of_bytes rfl rfl g.high.isLt, ?_, flagsByte_bits _ _⟩
  show (BitVec.ofNat 8 g.mode.code).toNat = g.mode.code
  cases g.mode <;> rfl

theorem ofImage_image {g : GuardSlot} (huse : g.inUse = true) (hmode : g.mode ≠ .none)
    (hrange : rangeAcceptable g.low g.high = true) : GuardSlot.ofImage g.image = g := by
  obtain ⟨hlow, hhigh, hcode, hbit0, hbit1⟩ := byteAt_image g
  unfold GuardSlot.ofImage
  rw [hlow, hhigh, hcode, hbit0, hbit1, BitVec.ofNat_toNat, BitVec.ofNat_toNat, BitVec.setWidth_eq, BitVec.setWidth_eq,
    huse]
  simp only [hrange, Bool.and_self, if_true]
  obtain ⟨inUse, low, high, mode, fixed⟩ := g
  cases huse
  cases mode with
  | none => exact absurd rfl hmode
  | writeGuarded => rfl
  | hidden => rfl

theorem flatMap_image_drop {l : List GuardSlot} {i : Nat} (h : i < l.length) :
    ((l.flatMap GuardSlot.image).drop (6 * i)).take 6 = l[i].image := by
  induction l generalizing i with
  | nil => exact absurd h (Nat.not_lt_zero i)
  | cons g rest ih =>
    rw [List.flatMap_cons]
    cases i with
    | zero => exact List.take_left' (length_image g)
    | succ i =>
      rw [show 6 * (i + 1) = 6 + 6 * i by omega, ← List.drop_drop, List.drop_left' (length_image g)]
      exact ih (Nat.lt_of_succ_lt_succ h)

theorem imageOf_settingsPayload (w : Settings) (g : Vector GuardSlot 8) {i : Nat} (h : i < 8) :
    imageOf (settingsPayload w g) i = g[i].image := by
  unfold imageOf settingsPayload
  rw [← List.drop_drop]
  have hlist : i < g.toList.length := by simpa using h
  exact (flatMap_image_drop hlist).trans (by simp)

theorem inRangeOr_of_inRange {lo hi dflt v : Nat} (h : lo ≤ v ∧ v ≤ hi) (hhi : hi < 256) :
    inRangeOr lo hi dflt (BitVec.ofNat 8 v).toNat = v := by
  have hv : (BitVec.ofNat 8 v).toNat = v := by
    rw [BitVec.toNat_ofNat]
    omega
  rw [inRangeOr, hv, if_pos h]

/-- Settles O16. -/
theorem settingsPayloadRoundTrip : Obligations.SettingsPayloadRoundTrip := by
  intro w g g0 ⟨hthreshold, hauto, hlimit⟩ hslots hfree
  have hlen := length_settingsPayload w g
  refine ⟨hlen, ?_, ?_, ?_⟩
  · unfold knownVersion
    rw [hlen]
    rfl
  · have h1 : byteAt (settingsPayload w g) 1 = BitVec.ofNat 8 w.threshold := rfl
    have h2 : byteAt (settingsPayload w g) 2 = BitVec.ofNat 8 w.autoReclaim := rfl
    have h3 : byteAt (settingsPayload w g) 3 = BitVec.ofNat 8 w.suspendLimit := rfl
    rw [Settings.ofPayload, h1, h2, h3, inRangeOr_of_inRange hthreshold (by decide),
      inRangeOr_of_inRange ⟨Nat.zero_le _, hauto⟩ (by decide), inRangeOr_of_inRange ⟨Nat.zero_le _, hlimit⟩ (by decide)]
  · ext i hi : 1
    have hfixed : g0[i].fixed = false := hfree ⟨i, hi⟩
    unfold loadGuards
    rw [Vector.getElem_mapIdx, hfixed, if_neg Bool.false_ne_true, imageOf_settingsPayload w g hi]
    have hslot : g[i] = GuardSlot.cleared ∨
        (g[i].inUse = true ∧ g[i].mode ≠ .none ∧ rangeAcceptable g[i].low g[i].high = true) := hslots ⟨i, hi⟩
    rcases hslot with e | ⟨huse, hmode, hrange⟩
    · rw [e]
      rfl
    · exact ofImage_image huse hmode hrange

end Sys2Proof.Machine
end

section
/-! SUPPORT. What a READ returns. -/

namespace Sys2Proof.Machine

set_option Elab.async false

/-! ### Lines whose bytes are known -/

theorem readLine_known {s : State} {ln : Nat} (h : undefKind s.flash.undef ln = none) :
    s.readLine ln = (s.flash.line ln, s) := by
  unfold State.readLine
  rw [h]

theorem length_line (f : Flash) (ln : Nat) : (f.line ln).length = 16 := by
  rw [Flash.line, List.length_map, List.length_range]
  rfl

theorem byteAt_line (f : Flash) (ln : Nat) {j : Nat} (h : j < 16) : byteAt (f.line ln) j = f.byte ln j := by
  unfold byteAt Flash.line
  have hj : j < Config.lineBytes := h
  simp [hj]

/-- A span of known lines: the array's bytes, and no free value drawn. -/
theorem readSpan_known {s : State} (n : Nat) {ln : Nat} (h : ∀ i, i < n → undefKind s.flash.undef (ln + i) = none) :
    (s.readSpan ln n).2 = s ∧ (s.readSpan ln n).1.length = 16 * n ∧
      ∀ i j, i < n → j < 16 → byteAt (s.readSpan ln n).1 (16 * i + j) = s.flash.byte (ln + i) j := by
  induction n generalizing ln with
  | zero => exact ⟨rfl, rfl, fun i j hi => absurd hi (Nat.not_lt_zero i)⟩
  | succ n ih =>
    have hfirst := readLine_known (h 0 (Nat.succ_pos n))
    rw [Nat.add_zero] at hfirst
    obtain ⟨hstate, hlen, hbytes⟩ := ih (ln := ln + 1) fun i hi => by
      rw [Nat.add_assoc, Nat.add_comm 1 i]
      exact h (i + 1) (by omega)
    have hline := length_line s.flash ln
    rw [State.readSpan, hfirst]
    refine ⟨hstate, ?_, fun i j hi hj => ?_⟩
    · rw [List.length_append, hline, hlen]
      omega
    · cases i with
      | zero =>
        rw [Nat.mul_zero, Nat.zero_add, byteAt_append_left _ (by rw [hline]; exact hj)]
        exact byteAt_line _ _ hj
      | succ i =>
        rw [show 16 * (i + 1) + j = (s.flash.line ln).length + (16 * i + j) by omega, byteAt_append_right,
          hbytes i j (by omega) hj, Nat.add_assoc, Nat.add_comm 1 i]

theorem lineNo_add (sec : SectorIx) {p i : Nat} (h : p + i < 256) : lineNo sec (p + i) = lineNo sec p + i := by
  unfold lineNo Config.linesPerSector
  rw [Nat.mod_eq_of_lt h, Nat.mod_eq_of_lt (by omega)]
  omega

theorem readSpan_linesKnown {s : State} {sec : SectorIx} {p n : Nat} (hp : p + n ≤ 256) (h : linesKnown s sec p n) :
    (s.readSpan (lineNo sec p) n).2 = s ∧ (s.readSpan (lineNo sec p) n).1.length = 16 * n ∧
      ∀ i j, i < n → j < 16 →
        byteAt (s.readSpan (lineNo sec p) n).1 (16 * i + j) = s.flash.byte (lineNo sec (p + i)) j := by
  obtain ⟨hstate, hlen, hbytes⟩ := readSpan_known (s := s) n (ln := lineNo sec p) fun i hi => by
    rw [← lineNo_add sec (by omega)]
    exact h i hi
  exact ⟨hstate, hlen, fun i j hi hj => by rw [hbytes i j hi hj, lineNo_add sec (by omega)]⟩

/-! ### Lists by their bytes -/

theorem ext_byteAt {xs ys : List Byte} (hlen : xs.length = ys.length)
    (h : ∀ i, i < xs.length → byteAt xs i = byteAt ys i) : xs = ys := by
  refine List.ext_getElem hlen fun i h1 h2 => ?_
  have hi := h i h1
  unfold byteAt at hi
  simpa [h1, h2] using hi

theorem byteAt_lineData (r : Record) (i : Nat) {j : Nat} (h : j < 16) :
    byteAt (r.lineData i) j = byteAt r.bytes (16 * i + j) := by
  have hj : j < Config.lineBytes := h
  have hmul : Config.lineBytes * i = 16 * i := rfl
  unfold byteAt Record.lineData
  simp only [List.getD_eq_getElem?_getD, List.getElem?_take, hj, if_true, List.getElem?_drop, hmul]

/-! ### The record form -/

theorem recordCheckOk_iff {bs : List Byte} {n : Nat} : recordCheckOk bs n = true ↔
    (byteAt bs 4).toNat ≤ 242 ∧ (14 + (byteAt bs 4).toNat + 15) / 16 ≤ n ∧
      (crc16 (bs.take (12 + (byteAt bs 4).toNat))).toNat = field16 bs (12 + (byteAt bs 4).toNat) := by
  unfold recordCheckOk checkVerifies linesFor Config.maxLength
  simp only [Bool.and_eq_true, decide_eq_true_eq, beq_iff_eq, and_assoc]

theorem headerLines_whole {p : Nat} {header : List Byte} (h : 1 ≤ (byteAt header 5).toNat ∧
    (byteAt header 5).toNat ≤ 16 ∧ p + (byteAt header 5).toNat - 1 ≤ 255) :
    headerLines p header = (byteAt header 5).toNat := if_pos h

theorem headerLines_alone {p : Nat} {header : List Byte} (h : ¬ (1 ≤ (byteAt header 5).toNat ∧
    (byteAt header 5).toNat ≤ 16 ∧ p + (byteAt header 5).toNat - 1 ≤ 255)) : headerLines p header = 1 := if_neg h

/-- The lines a record-form READ takes (R103). -/
def State.spanLines (s : State) (sec : SectorIx) (p : Nat) (r : ReadOutcome) : ReadLen → Nat
  | .lines n => min n (256 - p)
  | .header => headerLines p (returned r (s.readLine (lineNo sec p)).1)

theorem readRecord_stored (s : State) (sec : SectorIx) (p : Nat) (len : ReadLen) :
    s.readRecord sec p len .stored =
      let n := s.spanLines sec p .stored len
      ({ bytes := (s.readSpan (lineNo sec p) n).1, lines := n
         checkOk := recordCheckOk (s.readSpan (lineNo sec p) n).1 n }, (s.readSpan (lineNo sec p) n).2) := by
  cases len <;> rfl

/-- The lines that hold a record give back its bytes, and verify. -/
theorem readRecord_of_holds {s : State} {sec : SectorIx} {p : Nat} {rec : Record} (hlen : rec.length ≤ 242)
    (hp : p + rec.lines ≤ 256) (hknown : linesKnown s sec p rec.lines)
    (hbytes : ∀ i j, i < rec.lines → j < 16 → s.flash.byte (lineNo sec (p + i)) j = byteAt (rec.lineData i) j)
    {len : ReadLen} (hform : len = .header ∨ len = .lines rec.lines) :
    s.readRecord sec p len .stored = ({ bytes := rec.bytes, lines := rec.lines, checkOk := true }, s) := by
  have hpos : 1 ≤ rec.lines := linesFor_pos _
  have h16 : rec.lines ≤ 16 := linesFor_le_sixteen hlen
  have hspan : s.readSpan (lineNo sec p) rec.lines = (rec.bytes, s) := by
    obtain ⟨hstate, hlength, hread⟩ := readSpan_linesKnown hp hknown
    refine Prod.ext (ext_byteAt (hlength.trans (length_bytes rec).symm) fun k hk => ?_) hstate
    rw [hlength] at hk
    have hk' : 16 * (k / 16) + k % 16 = k := Nat.div_add_mod k 16
    have hi : k / 16 < rec.lines := by omega
    have hj : k % 16 < 16 := Nat.mod_lt _ (by decide)
    have h := hread (k / 16) (k % 16) hi hj
    rw [hbytes _ _ hi hj, byteAt_lineData _ _ hj, hk'] at h
    exact h
  have hlines : s.spanLines sec p .stored len = rec.lines := by
    rcases hform with rfl | rfl
    · have hfirst : byteAt (s.readLine (lineNo sec p)).1 5 = byteAt rec.bytes 5 := by
        have h := hbytes 0 5 hpos (by decide)
        rw [byteAt_lineData _ _ (by decide)] at h
        have hzero : undefKind s.flash.undef (lineNo sec p) = none := hknown 0 hpos
        rw [readLine_known hzero, byteAt_line _ _ (by decide)]
        exact h
      have hcount : (byteAt (s.readLine (lineNo sec p)).1 5).toNat = rec.lines := by
        rw [hfirst, byteAt_bytes_lines hlen]
      have hwhole := headerLines_whole (p := p) (header := (s.readLine (lineNo sec p)).1)
      rw [hcount] at hwhole
      exact hwhole ⟨hpos, h16, by omega⟩
    · show min rec.lines (256 - p) = rec.lines
      omega
  rw [readRecord_stored]
  simp only [hlines, hspan, recordCheckOk_bytes hlen]

theorem recordCheckOk_blank : recordCheckOk (List.replicate 16 0xFF#8) 1 = false := by
  decide

theorem readRecord_blank {s : State} {sec : SectorIx} {p : Nat} (hknown : linesKnown s sec p 1)
    (hbytes : ∀ j, j < 16 → s.flash.byte (lineNo sec p) j = 0xFF#8) :
    s.readRecord sec p .header .stored = ({ bytes := List.replicate 16 0xFF#8, lines := 1, checkOk := false }, s) := by
  have hline : s.readLine (lineNo sec p) = (List.replicate 16 0xFF#8, s) := by
    have hzero : undefKind s.flash.undef (lineNo sec p) = none := hknown 0 (by decide)
    rw [readLine_known hzero]
    refine Prod.ext (ext_byteAt (length_line _ _) fun j hj => ?_) rfl
    rw [length_line] at hj
    rw [byteAt_line _ _ hj, hbytes j hj]
    unfold byteAt
    rw [List.getD_replicate _ hj]
  have hlines : s.spanLines sec p .stored .header = 1 := by
    show headerLines p (s.readLine (lineNo sec p)).1 = 1
    rw [hline]
    have hcount : (byteAt (List.replicate 16 (0xFF#8 : Byte)) 5).toNat = 255 := by decide
    exact headerLines_alone (header := List.replicate 16 0xFF#8) fun ⟨_, hmax, _⟩ => by omega
  have hspan : s.readSpan (lineNo sec p) 1 = (List.replicate 16 0xFF#8, s) := by
    rw [State.readSpan, hline]
    rfl
  rw [readRecord_stored]
  simp only [hlines, hspan, recordCheckOk_blank]

/-! ### Undefined bytes -/

theorem length_constrain (k : UndefKind) {bs : List Byte} (h : bs.length = 16) : (constrain k bs).length = 16 := by
  unfold constrain
  cases k with
  | free => exact h
  | noEraseStamp =>
    simp only
    split
    · rfl
    · exact h
  | noOpenStamp =>
    simp only
    split
    · exact h
    · rfl

theorem length_freeBytes (v : BitVec 128) : (freeBytes v).length = 16 := by
  rw [freeBytes, List.length_map, List.length_range]

theorem judgeOpenStamp_constrain (bs : List Byte) : judgeOpenStamp (constrain .noOpenStamp bs) = .invalid := by
  unfold constrain
  simp only
  split
  · assumption
  · decide +kernel

/-- Settles O14. -/
theorem readReturns : Obligations.ReadReturns := by
  refine ⟨fun s sec p n hp hknown => readSpan_linesKnown hp hknown, fun s sec p len r => ?form,
    fun s sec p _ hknown hbytes => readRecord_blank hknown hbytes,
    fun s sec p rec hlen hp hknown hbytes len hform => readRecord_of_holds hlen hp hknown hbytes hform,
    fun s ln k hk => ?undefined⟩
  case form =>
    refine ⟨readRecord_drawn s sec p len r, fun hr => ?_, recordCheckOk_iff, fun n hlen => ?_, fun hlen => ?_⟩
    · subst hr
      rfl
    · subst hlen
      rfl
    · subst hlen
      exact ⟨headerLines_whole, headerLines_alone⟩
  case undefined =>
    rw [readLine_of_kind hk]
    refine ⟨length_constrain k (length_freeBytes _), rfl, fun hfree i hi => ?_, fun he => ?_, fun ho => ?_⟩
    · subst hfree
      show byteAt (freeBytes (Config.freeLine s.freeCount)) i = _
      unfold byteAt freeBytes
      simp [hi]
    · subst he
      exact validEraseStamp_constrain _
    · subst ho
      exact judgeOpenStamp_constrain _

end Sys2Proof.Machine
end

section
/-! SUPPORT. Takes held back, the answers of the store state, GET and NEXT. -/

namespace Sys2Proof.Machine

set_option Elab.async false

/-! ### Takes -/

/-- The take of a code is the take of a head with that code (R152, R159). -/
theorem exec_of_takes {c : Instr} {code : Byte} (h : (c, code) ∈ takes) (s : State) :
    ∃ run, exec c s = s.takes (fun x => decide (x = code)) run := by
  simp only [takes, List.mem_cons, List.not_mem_nil, or_false, Prod.mk.injEq] at h
  rcases h with ⟨rfl, rfl⟩ | ⟨rfl, rfl⟩ | ⟨rfl, rfl⟩ | ⟨rfl, rfl⟩ | ⟨rfl, rfl⟩ | ⟨rfl, rfl⟩ | ⟨rfl, rfl⟩ | ⟨rfl, rfl⟩ |
    ⟨rfl, rfl⟩ | ⟨rfl, rfl⟩ | ⟨rfl, rfl⟩ | ⟨rfl, rfl⟩ | ⟨rfl, rfl⟩ | ⟨rfl, rfl⟩
  · exact ⟨_, exec_get s⟩
  · exact ⟨_, exec_nextCommand s⟩
  · exact ⟨_, exec_put s⟩
  · exact ⟨_, exec_delete s⟩
  · exact ⟨_, exec_discard s⟩
  · exact ⟨_, exec_commit s⟩
  · exact ⟨_, exec_setting s⟩
  · exact ⟨_, exec_saveSettings s⟩
  · exact ⟨_, exec_guardSet s⟩
  · exact ⟨_, exec_guardFix s⟩
  · exact ⟨_, exec_sectorQuery s⟩
  · exact ⟨_, exec_reclaim s⟩
  · exact ⟨_, exec_mount s⟩
  · exact ⟨_, exec_format s⟩

theorem takes_of_none {s : State} {test : Byte → Bool} (h : s.takeable test = none)
    (run : State → CmdEntry → Host.Outcome State Fault Refusal) : s.takes test run = .next s := by
  rw [State.takes, h]
  rfl

/-- The conditions that hold a take back (R151, R152). -/
theorem takeable_heldBack {s : State} {code : Byte}
    (h : s.cu.queue = [] ∨ s.store.st = .mounting ∨ s.cu.executing ≠ none ∨
      8 ≤ s.cu.completions.length + s.cu.inFlight.length ∨ (∃ e rest, s.cu.queue = e :: rest ∧ e.code ≠ code)) :
    s.takeable (fun x => decide (x = code)) = none := by
  refine Option.eq_none_iff_forall_ne_some.mpr fun e he => ?_
  obtain ⟨hqueue, hmay, hcode⟩ := takeable_some he
  obtain ⟨hexec, hroom⟩ := mayTake_places hmay
  have hroom : s.cu.completions.length + s.cu.inFlight.length + 1 ≤ 8 := hroom
  rcases h with h | h | h | h | ⟨x, rest, h, hne⟩
  · rw [h] at hqueue
    exact nomatch hqueue
  · exact mayTake_state hmay h
  · exact h hexec
  · omega
  · rw [h] at hqueue
    cases hqueue
    exact hne (of_decide_eq_true hcode)

/-- Settles O38. -/
theorem takesHeldBackOrUnknown : Obligations.TakesHeldBackOrUnknown := by
  refine ⟨fun s c code hc hback => ?held, fun s e rest hheads hcode => ?unknown⟩
  case held =>
    obtain ⟨run, hexec⟩ := exec_of_takes hc s
    rw [hexec, takes_of_none (takeable_heldBack hback)]
  case unknown =>
    have htest : (!definedCodes.contains e.code) = true := by
      rw [Bool.not_eq_true', ← Bool.not_eq_true, List.contains_iff_mem]
      exact hcode
    rw [exec_unknownCommand, takes_of_heads hheads htest, dequeue_answer_of_heads hheads]

/-! ### Answers of the store state -/

/-- An answer of a background command outside MOUNTED, its step ending in a grant (R107, R161). -/
theorem conclude_answer_of_heads {s : State} {e : CmdEntry} {rest : List CmdEntry} (h : s.heads e rest) (st : Status)
    (hst : s.store.st ≠ .mounted) :
    conclude (s.dequeue.answer e st 0 0 0, []) =
      .next (State.grant { s with cu := s.cu.answered rest (e.done st 0 0 0) }) := by
  rw [dequeue_answer_of_heads h]
  exact conclude_rest _ (.inl hst)

theorem takeGet_of_admitRead {s : State} {e : CmdEntry} {st : Status} (h : s.admitRead = some st) :
    s.takeGet e = s.answer e st 0 0 0 := by
  unfold State.takeGet
  rw [h]

theorem takeNext_of_admitRead {s : State} {e : CmdEntry} {st : Status} (h : s.admitRead = some st) :
    s.takeNext e = s.answer e st 0 0 0 := by
  unfold State.takeNext
  rw [h]

theorem takePut_of_putCheck {s : State} {e : CmdEntry} {st : Status} (h : s.putCheck e = some st) :
    s.takePut e = (s.raiseIf (decide (st = .protected_)) .guardRefusal).answerStaged e st := by
  unfold State.takePut
  rw [h]

theorem takeDelete_of_deleteCheck {s : State} {e : CmdEntry} {st : Status} (h : s.deleteCheck e = some st) :
    s.takeDelete e = (s.raiseIf (decide (st = .protected_)) .guardRefusal).answerStaged e st := by
  unfold State.takeDelete
  rw [h]

theorem putCheck_of_admitStaging {s : State} {st : Status} (h : s.admitStaging = some st) (e : CmdEntry) :
    s.putCheck e = some st := by
  unfold State.putCheck
  rw [h]

theorem deleteCheck_of_admitStaging {s : State} {st : Status} (h : s.admitStaging = some st) (e : CmdEntry) :
    s.deleteCheck e = some st := by
  unfold State.deleteCheck
  rw [h]

/-- The completion of a PUT or DELETE that leaves the list as it is. -/
theorem dequeue_answerStaged_of_heads {s : State} {e : CmdEntry} {rest : List CmdEntry} (h : s.heads e rest)
    (st : Status) :
    s.dequeue.answerStaged e st = { s with cu := s.cu.answered rest (stagedDone e st s.tm.staging) } :=
  dequeue_answer_of_heads h st 0 s.tm.staging.length (stagedBytesOf s.tm.staging)

/-- A refusal of PUT that is not PROTECTED moves the two queues alone. -/
theorem exec_put_of_putCheck {s : State} {e : CmdEntry} {rest : List CmdEntry} {st : Status} (h : s.heads e rest)
    (hcode : e.code = 0x20#8) (hcheck : s.putCheck e = some st) (hst : st ≠ .protected_) :
    exec .put s = .next { s with cu := s.cu.answered rest (stagedDone e st s.tm.staging) } := by
  have hd : s.dequeue.putCheck e = some st := hcheck
  rw [exec_put, takes_of_heads h (decide_eq_true hcode), takePut_of_putCheck hd, decide_eq_false hst,
    ← dequeue_answerStaged_of_heads h]
  rfl

theorem exec_delete_of_deleteCheck {s : State} {e : CmdEntry} {rest : List CmdEntry} {st : Status} (h : s.heads e rest)
    (hcode : e.code = 0x21#8) (hcheck : s.deleteCheck e = some st) (hst : st ≠ .protected_) :
    exec .delete s = .next { s with cu := s.cu.answered rest (stagedDone e st s.tm.staging) } := by
  have hd : s.dequeue.deleteCheck e = some st := hcheck
  rw [exec_delete, takes_of_heads h (decide_eq_true hcode), takeDelete_of_deleteCheck hd, decide_eq_false hst,
    ← dequeue_answerStaged_of_heads h]
  rfl

/-- A background command that ends in a state which answers it, outside MOUNTED. -/
theorem endsIn_answer {c : Instr} {s : State} {e : CmdEntry} {rest : List CmdEntry} (h : s.heads e rest) {st : Status}
    (hexec : exec c s = conclude (s.dequeue.answer e st 0 0 0, [])) (hst : s.store.st ≠ .mounted) :
    endsIn c s { s with cu := s.cu.answered rest (e.done st 0 0 0) } nowhere :=
  endsIn_of_same (hexec.trans (conclude_answer_of_heads h st hst)) rfl _

theorem exec_commit_of_admitWrite {s : State} {e : CmdEntry} {rest : List CmdEntry} {st : Status} (h : s.heads e rest)
    (hcode : e.code = 0x23#8) (hw : s.admitWrite = some st) (hst : st ≠ .protected_) :
    exec .commit s = conclude (s.dequeue.answer e st 0 0 0, []) := by
  have hcheck : s.dequeue.commitCheck = some st := by
    unfold State.commitCheck
    rw [show s.dequeue.admitWrite = some st from hw]
  rw [exec_commit, takes_of_heads h (decide_eq_true hcode)]
  unfold State.takeCommitCommand
  rw [hcheck]
  simp only [decide_eq_false hst, State.raiseIf, Bool.false_eq_true, if_false]

theorem exec_saveSettings_of_admitWrite {s : State} {e : CmdEntry} {rest : List CmdEntry} {st : Status}
    (h : s.heads e rest) (hcode : e.code = 0x31#8) (hw : s.admitWrite = some st) (hst : st ≠ .protected_) :
    exec .saveSettings s = conclude (s.dequeue.answer e st 0 0 0, []) := by
  have hcheck : s.dequeue.saveCheck = some st := by
    unfold State.saveCheck
    rw [show s.dequeue.admitWrite = some st from hw]
  rw [exec_saveSettings, takes_of_heads h (decide_eq_true hcode)]
  unfold State.takeSaveSettings
  rw [hcheck]
  simp only [decide_eq_false hst, State.raiseIf, Bool.false_eq_true, if_false]

theorem exec_reclaim_of_admitWrite {s : State} {e : CmdEntry} {rest : List CmdEntry} {st : Status} (h : s.heads e rest)
    (hcode : e.code = 0x41#8) (hw : s.admitWrite = some st) :
    exec .reclaim s = conclude (s.dequeue.answer e st 0 0 0, []) := by
  rw [exec_reclaim, takes_of_heads h (decide_eq_true hcode)]
  unfold State.takeReclaim
  rw [show s.dequeue.admitWrite = some st from hw]

theorem takeMount_of_mountCheck {s : State} {e : CmdEntry} {st : Status} (h : s.mountCheck = some st) :
    s.takeMount e = s.answer e st 0 0 0 := by
  unfold State.takeMount
  rw [h]

theorem takeFormat_of_formatCheck {s : State} {e : CmdEntry} {st : Status} (h : s.formatCheck = some st) :
    s.takeFormat e = s.answer e st 0 0 0 := by
  unfold State.takeFormat
  rw [h]

theorem takeGuardSet_of_admitLocal {s : State} {e : CmdEntry} {st : Status} (h : s.admitLocal = some st) :
    s.takeGuardSet e = s.answer e st 0 0 0 := by
  unfold State.takeGuardSet
  rw [h]

theorem takeGuardFix_of_admitLocal {s : State} {e : CmdEntry} {st : Status} (h : s.admitLocal = some st) :
    s.takeGuardFix e = s.answer e st 0 0 0 := by
  unfold State.takeGuardFix
  rw [h]

theorem exec_mount_of_mountCheck {s : State} {e : CmdEntry} {rest : List CmdEntry} {st : Status} (h : s.heads e rest)
    (hcode : e.code = 0x50#8) (hcheck : s.mountCheck = some st) :
    exec .mount s = .next (State.grant { s with cu := s.cu.answered rest (e.done st 0 0 0) }) := by
  have hd : s.dequeue.mountCheck = some st := hcheck
  rw [exec_mount, takes_of_heads h (decide_eq_true hcode), takeMount_of_mountCheck hd, dequeue_answer_of_heads h]

theorem exec_format_of_formatCheck {s : State} {e : CmdEntry} {rest : List CmdEntry} {st : Status} (h : s.heads e rest)
    (hcode : e.code = 0x51#8) (hcheck : s.formatCheck = some st) :
    exec .format s = .next (State.grant { s with cu := s.cu.answered rest (e.done st 0 0 0) }) := by
  have hd : s.dequeue.formatCheck = some st := hcheck
  rw [exec_format, takes_of_heads h (decide_eq_true hcode), takeFormat_of_formatCheck hd, dequeue_answer_of_heads h]

theorem exec_setting_of_admitLocal {s : State} {e : CmdEntry} {rest : List CmdEntry} {st : Status} (h : s.heads e rest)
    (hcode : e.code = 0x30#8) (hw : s.admitLocal = some st) :
    exec .setting s = conclude (s.dequeue.answer e st 0 0 0, []) := by
  rw [exec_setting, takes_of_heads h (decide_eq_true hcode)]
  unfold State.takeSetting
  rw [show s.dequeue.admitLocal = some st from hw]

theorem exec_guardSet_of_admitLocal {s : State} {e : CmdEntry} {rest : List CmdEntry} {st : Status} (h : s.heads e rest)
    (hcode : e.code = 0x38#8) (hw : s.admitLocal = some st) :
    exec .guardSet s = .next { s with cu := s.cu.answered rest (e.done st 0 0 0) } := by
  have hd : s.dequeue.admitLocal = some st := hw
  rw [exec_guardSet, takes_of_heads h (decide_eq_true hcode), takeGuardSet_of_admitLocal hd, dequeue_answer_of_heads h]

theorem exec_guardFix_of_admitLocal {s : State} {e : CmdEntry} {rest : List CmdEntry} {st : Status} (h : s.heads e rest)
    (hcode : e.code = 0x39#8) (hw : s.admitLocal = some st) :
    exec .guardFix s = .next { s with cu := s.cu.answered rest (e.done st 0 0 0) } := by
  have hd : s.dequeue.admitLocal = some st := hw
  rw [exec_guardFix, takes_of_heads h (decide_eq_true hcode), takeGuardFix_of_admitLocal hd, dequeue_answer_of_heads h]

theorem exec_get_of_admitRead {s : State} {e : CmdEntry} {rest : List CmdEntry} {st : Status} (h : s.heads e rest)
    (hcode : e.code = 0x10#8) (hw : s.admitRead = some st) :
    exec .get s = .next { s with cu := s.cu.answered rest (e.done st 0 0 0) } := by
  have hd : s.dequeue.admitRead = some st := hw
  rw [exec_get, takes_of_heads h (decide_eq_true hcode), takeGet_of_admitRead hd, dequeue_answer_of_heads h]

theorem exec_next_of_admitRead {s : State} {e : CmdEntry} {rest : List CmdEntry} {st : Status} (h : s.heads e rest)
    (hcode : e.code = 0x11#8) (hw : s.admitRead = some st) :
    exec .next s = .next { s with cu := s.cu.answered rest (e.done st 0 0 0) } := by
  have hd : s.dequeue.admitRead = some st := hw
  rw [exec_nextCommand, takes_of_heads h (decide_eq_true hcode), takeNext_of_admitRead hd, dequeue_answer_of_heads h]

/-- The code that each take takes is the one of its row (R159). -/
theorem code_of_takes {c : Instr} {code : Byte} (h : (c, code) ∈ takes) :
    (c = .get → code = 0x10#8) ∧ (c = .next → code = 0x11#8) ∧ (c = .put → code = 0x20#8) ∧ (c = .delete → code = 0x21#8) ∧
      (c = .commit → code = 0x23#8) ∧ (c = .setting → code = 0x30#8) ∧ (c = .saveSettings → code = 0x31#8) ∧
      (c = .guardSet → code = 0x38#8) ∧ (c = .guardFix → code = 0x39#8) ∧ (c = .reclaim → code = 0x41#8) ∧
      (c = .mount → code = 0x50#8) ∧ (c = .format → code = 0x51#8) := by
  simp only [takes, List.mem_cons, List.not_mem_nil, or_false, Prod.mk.injEq] at h
  rcases h with ⟨rfl, rfl⟩ | ⟨rfl, rfl⟩ | ⟨rfl, rfl⟩ | ⟨rfl, rfl⟩ | ⟨rfl, rfl⟩ | ⟨rfl, rfl⟩ | ⟨rfl, rfl⟩ | ⟨rfl, rfl⟩ |
    ⟨rfl, rfl⟩ | ⟨rfl, rfl⟩ | ⟨rfl, rfl⟩ | ⟨rfl, rfl⟩ | ⟨rfl, rfl⟩ | ⟨rfl, rfl⟩ <;>
    simp

theorem admitRead_of_refused {s : State} :
    (s.store.st = .unmounted → s.admitRead = some .notMounted) ∧ (s.store.st = .formatting → s.admitRead = some .busy) ∧
      (s.store.st = .powerHold → s.store.dirValid = false → s.admitRead = some .notMounted) := by
  unfold State.admitRead
  refine ⟨fun h => ?_, fun h => ?_, fun h hvalid => ?_⟩ <;> rw [h]
  simp [hvalid]

theorem admitWrite_of_refused {s : State} :
    (s.store.st = .readOnly → s.admitWrite = some .readOnly) ∧ (s.store.st = .unmounted → s.admitWrite = some .notMounted) ∧
      (s.store.st = .formatting → s.admitWrite = some .busy) ∧
      (s.store.st = .powerHold → s.admitWrite = some .powerFail) := by
  unfold State.admitWrite
  refine ⟨fun h => ?_, fun h => ?_, fun h => ?_, fun h => ?_⟩ <;> rw [h]

theorem admitLocal_of_formatting {s : State} (h : s.store.st = .formatting) : s.admitLocal = some .busy := by
  unfold State.admitLocal
  rw [h]

theorem admitLocal_of_not_formatting {s : State} (h : s.store.st ≠ .formatting) : s.admitLocal = none := by
  unfold State.admitLocal
  split
  · contradiction
  · rfl

theorem mountCheck_of_refused {s : State} :
    (s.store.st = .formatting → s.mountCheck = some .busy) ∧ (s.store.st = .mounted → s.mountCheck = some .wrongState) ∧
      (s.store.st = .powerHold → s.pins.pfailLow = true → s.mountCheck = some .powerFail) := by
  unfold State.mountCheck
  refine ⟨fun h => ?_, fun h => ?_, fun h hlow => ?_⟩
  · simp [h]
  · simp [h]
  · simp [h, hlow]

theorem formatCheck_of_refused {s : State} :
    (s.store.st = .formatting → s.formatCheck = some .busy) ∧ (s.store.st = .powerHold → s.formatCheck = some .powerFail) := by
  unfold State.formatCheck
  refine ⟨fun h => ?_, fun h => ?_⟩ <;> simp [h]

section Answers
variable {s : State} {e : CmdEntry} {rest : List CmdEntry}

/-- What a store state refuses GET and NEXT with (R161). -/
theorem read_refused (h : s.heads e rest) {st : Status} (hw : s.admitRead = some st) {c : Instr}
    (hc : c ∈ [Instr.get, .next]) (hcode : (c, e.code) ∈ takes) :
    exec c s = .next { s with cu := s.cu.answered rest (e.done st 0 0 0) } := by
  obtain ⟨hget, hnext, -⟩ := code_of_takes hcode
  simp only [List.mem_cons, List.not_mem_nil, or_false] at hc
  rcases hc with rfl | rfl
  · exact exec_get_of_admitRead h (hget rfl) hw
  · exact exec_next_of_admitRead h (hnext rfl) hw

/-- What a store state refuses PUT and DELETE with (R161). -/
theorem staging_refused (h : s.heads e rest) {st : Status} (hw : s.admitWrite = some st) (hst : st ≠ .protected_)
    {c : Instr} (hc : c ∈ [Instr.put, .delete]) (hcode : (c, e.code) ∈ takes) :
    exec c s = .next { s with cu := s.cu.answered rest (stagedDone e st s.tm.staging) } := by
  obtain ⟨-, -, hput, hdelete, -⟩ := code_of_takes hcode
  have hs : s.admitStaging = some st := admitStaging_of_admitWrite hw
  simp only [List.mem_cons, List.not_mem_nil, or_false] at hc
  rcases hc with rfl | rfl
  · exact exec_put_of_putCheck h (hput rfl) (putCheck_of_admitStaging hs e) hst
  · exact exec_delete_of_deleteCheck h (hdelete rfl) (deleteCheck_of_admitStaging hs e) hst

/-- What a store state refuses COMMIT, SAVE-SETTINGS and RECLAIM with (R161). -/
theorem write_refused (h : s.heads e rest) {st : Status} (hw : s.admitWrite = some st) (hst : st ≠ .protected_)
    (hstore : s.store.st ≠ .mounted) {c : Instr} (hc : c ∈ [Instr.commit, .saveSettings, .reclaim])
    (hcode : (c, e.code) ∈ takes) :
    endsIn c s { s with cu := s.cu.answered rest (e.done st 0 0 0) } nowhere := by
  obtain ⟨-, -, -, -, hcommit, -, hsave, -, -, hreclaim, -⟩ := code_of_takes hcode
  simp only [List.mem_cons, List.not_mem_nil, or_false] at hc
  rcases hc with rfl | rfl | rfl
  · exact endsIn_answer h (exec_commit_of_admitWrite h (hcommit rfl) hw hst) hstore
  · exact endsIn_answer h (exec_saveSettings_of_admitWrite h (hsave rfl) hw hst) hstore
  · exact endsIn_answer h (exec_reclaim_of_admitWrite h (hreclaim rfl) hw) hstore

/-- FORMATTING refuses what it refuses BUSY (R161). -/
theorem local_refused (h : s.heads e rest) (hstore : s.store.st = .formatting) {c : Instr}
    (hc : c ∈ [Instr.guardSet, .guardFix]) (hcode : (c, e.code) ∈ takes) :
    exec c s = .next { s with cu := s.cu.answered rest (e.done .busy 0 0 0) } := by
  obtain ⟨-, -, -, -, -, -, -, hset, hfix, -⟩ := code_of_takes hcode
  simp only [List.mem_cons, List.not_mem_nil, or_false] at hc
  rcases hc with rfl | rfl
  · exact exec_guardSet_of_admitLocal h (hset rfl) (admitLocal_of_formatting hstore)
  · exact exec_guardFix_of_admitLocal h (hfix rfl) (admitLocal_of_formatting hstore)

theorem formatting_refused (h : s.heads e rest) (hstore : s.store.st = .formatting) {c : Instr}
    (hc : c ∈ [Instr.setting, .mount, .format]) (hcode : (c, e.code) ∈ takes) :
    endsIn c s { s with cu := s.cu.answered rest (e.done .busy 0 0 0) } nowhere := by
  obtain ⟨-, -, -, -, -, hsetting, -, -, -, -, hmount, hformat⟩ := code_of_takes hcode
  simp only [List.mem_cons, List.not_mem_nil, or_false] at hc
  rcases hc with rfl | rfl | rfl
  · exact endsIn_answer h (exec_setting_of_admitLocal h (hsetting rfl) (admitLocal_of_formatting hstore))
      (by rw [hstore]; decide)
  · exact endsIn_of_same (exec_mount_of_mountCheck h (hmount rfl) (mountCheck_of_refused.1 hstore)) rfl _
  · exact endsIn_of_same (exec_format_of_formatCheck h (hformat rfl) (formatCheck_of_refused.1 hstore)) rfl _

end Answers

/-- Settles O39. -/
theorem storeStateAnswers : Obligations.StoreStateAnswers := by
  intro s e rest h
  dsimp only
  obtain ⟨hrUnmounted, hrFormatting, hrHold⟩ := admitRead_of_refused (s := s)
  obtain ⟨hwReadOnly, hwUnmounted, hwFormatting, hwHold⟩ := admitWrite_of_refused (s := s)
  obtain ⟨-, hmMounted, hmHold⟩ := mountCheck_of_refused (s := s)
  have hne {x : StoreState} (hx : s.store.st = x) (hxm : x ≠ .mounted) : s.store.st ≠ .mounted := hx ▸ hxm
  refine ⟨fun c hc hcode => ⟨fun hst => ?_, fun hst => ?_, fun hst hvalid => ?_⟩,
    fun c hc hcode => ⟨fun hst => ?_, fun hst => ?_, fun hst => ?_, fun hst => ?_⟩,
    fun c hc hcode => ⟨fun hst => ?_, fun hst => ?_, fun hst => ?_, fun hst => ?_⟩,
    fun hst c hc hcode => local_refused h hst hc hcode, fun hst c hc hcode => formatting_refused h hst hc hcode,
    fun hst hcode => ?mounted, fun hst hlow hcode => ?hold, fun hst hcode => ?format⟩
  · exact read_refused h (hrUnmounted hst) hc hcode
  · exact read_refused h (hrFormatting hst) hc hcode
  · exact read_refused h (hrHold hst hvalid) hc hcode
  · exact staging_refused h (hwReadOnly hst) (by decide) hc hcode
  · exact staging_refused h (hwUnmounted hst) (by decide) hc hcode
  · exact staging_refused h (hwFormatting hst) (by decide) hc hcode
  · exact staging_refused h (hwHold hst) (by decide) hc hcode
  · exact write_refused h (hwReadOnly hst) (by decide) (hne hst (by decide)) hc hcode
  · exact write_refused h (hwUnmounted hst) (by decide) (hne hst (by decide)) hc hcode
  · exact write_refused h (hwFormatting hst) (by decide) (hne hst (by decide)) hc hcode
  · exact write_refused h (hwHold hst) (by decide) (hne hst (by decide)) hc hcode
  case mounted =>
    obtain ⟨-, -, -, -, -, -, -, -, -, -, hmount, -⟩ := code_of_takes hcode
    exact endsIn_of_same (exec_mount_of_mountCheck h (hmount rfl) (hmMounted hst)) rfl _
  case hold =>
    obtain ⟨-, -, -, -, -, -, -, -, -, -, hmount, -⟩ := code_of_takes hcode
    exact endsIn_of_same (exec_mount_of_mountCheck h (hmount rfl) (hmHold hst hlow)) rfl _
  case format =>
    obtain ⟨-, -, -, -, -, -, -, -, -, -, -, hformat⟩ := code_of_takes hcode
    exact endsIn_of_same (exec_format_of_formatCheck h (hformat rfl) (formatCheck_of_refused.2 hst)) rfl _

end Sys2Proof.Machine
end

section
/-! SUPPORT. GET, the end of its READ, and NEXT. -/

namespace Sys2Proof.Machine

set_option Elab.async false

theorem admitRead_of_admitted {s : State} (h : readsAdmitted s) : s.admitRead = none := by
  unfold State.admitRead
  rcases h with h | h | ⟨h, hvalid⟩ <;> rw [h]
  simp [hvalid]

theorem isHidden_iff {s : State} {k : Key} : s.isHidden k = true ↔ s.guardMode k = .hidden := decide_eq_true_iff

theorem isGuarded_iff {s : State} {k : Key} : s.isGuarded k = true ↔ s.guardMode k ≠ .none := decide_eq_true_iff

theorem isUserKey_iff {k : Key} : isUserKey k = true ↔ userKey k := decide_eq_true_iff

theorem getKey_iff {k : Key} : getKey k = true ↔ getAccepts k := by
  unfold getKey
  rw [Bool.or_eq_true, isUserKey_iff, decide_eq_true_iff]
  rfl

/-! ### The checks of GET -/

theorem getCheck_badKey {s : State} {k : Key} (h : ¬ getAccepts k) : s.getCheck k = .error .badKey := by
  unfold State.getCheck
  rw [if_pos (by rwa [Bool.not_eq_true', ← Bool.not_eq_true, getKey_iff])]

theorem getCheck_hidden {s : State} {k : Key} (hk : getAccepts k) (h : s.guardMode k = .hidden) :
    s.getCheck k = .error .protected_ := by
  unfold State.getCheck
  rw [getKey_iff.mpr hk, isHidden_iff.mpr h]
  rfl

theorem not_isHidden {s : State} {k : Key} (h : s.guardMode k ≠ .hidden) : s.isHidden k = false := decide_eq_false h

theorem getCheck_found {s : State} {k : Key} {d : DirEntry} (hk : getAccepts k) (h : s.guardMode k ≠ .hidden)
    (hd : s.entry k = some d) (hp : d.present = true) : s.getCheck k = .ok d := by
  unfold State.getCheck
  rw [getKey_iff.mpr hk, not_isHidden h, hd]
  exact if_pos hp

theorem getCheck_missing {s : State} {k : Key} (hk : getAccepts k) (h : s.guardMode k ≠ .hidden)
    (hd : s.entry k = none ∨ ∃ d, s.entry k = some d ∧ d.present = false) : s.getCheck k = .error .notFound := by
  unfold State.getCheck
  rw [getKey_iff.mpr hk, not_isHidden h]
  rcases hd with hd | ⟨d, hd, hp⟩ <;> rw [hd]
  · rfl
  · exact if_neg (c := d.present = true) (by rw [hp]; exact Bool.false_ne_true)

theorem takeGet_of_error {s : State} {e : CmdEntry} {st : Status} (hr : s.admitRead = none)
    (h : s.getCheck e.key = .error st) :
    s.takeGet e = (s.raiseIf (decide (st = .protected_)) .guardRefusal).answer e st 0 0 0 := by
  unfold State.takeGet
  rw [hr, h]

theorem takeGet_of_ok {s : State} {e : CmdEntry} {d : DirEntry} (hr : s.admitRead = none)
    (h : s.getCheck e.key = .ok d) : s.takeGet e = (s.startGet e d).grant := by
  unfold State.takeGet
  rw [hr, h]

theorem startGet_eq (s : State) (e : CmdEntry) (d : DirEntry) : s.startGet e d =
    { s with
      cu := { s.cu with executing := some (snapshotOf e d) }
      arr := s.arr.put .h (.readRecord d.loc.sector d.loc.line (.lines d.lines)) } :=
  congrArg Prod.fst (place_joins (s := { s with cu := { s.cu with executing := some (snapshotOf e d) } }) (x := .h)
    (op := .readRecord d.loc.sector d.loc.line (.lines d.lines)) (.inl rfl))

/-- A GET refused at its take, PROTECTED raising GUARD-REFUSAL. -/
theorem exec_get_of_error {s : State} {e : CmdEntry} {rest : List CmdEntry} {st : Status} (h : s.heads e rest)
    (hcode : e.code = 0x10#8) (hr : readsAdmitted s) (hcheck : s.getCheck e.key = .error st) :
    exec .get s = .next { s with
      cu := s.cu.answered rest (e.done st 0 0 0)
      win := if st = .protected_ then s.win.raised .guardRefusal else s.win } := by
  have hd : s.dequeue.getCheck e.key = .error st := hcheck
  rw [exec_get, takes_of_heads h (decide_eq_true hcode), takeGet_of_error (admitRead_of_admitted (s := s.dequeue) hr) hd]
  by_cases hst : st = .protected_
  · rw [decide_eq_true hst, if_pos hst]
    exact congrArg (fun x : State => Host.Outcome.next { x with win := s.win.raised .guardRefusal })
      (dequeue_answer_of_heads h st 0 0 0)
  · rw [decide_eq_false hst, if_neg hst]
    exact congrArg Host.Outcome.next (dequeue_answer_of_heads h st 0 0 0)

theorem exec_get_of_ok {s : State} {e : CmdEntry} {rest : List CmdEntry} {d : DirEntry} (h : s.heads e rest)
    (hcode : e.code = 0x10#8) (hr : readsAdmitted s) (hcheck : s.getCheck e.key = .ok d) :
    exec .get s = .next (State.grant { s with
      cu := { s.cu with queue := rest, executing := some (snapshotOf e d) }
      arr := s.arr.put .h (.readRecord d.loc.sector d.loc.line (.lines d.lines)) }) := by
  have hd : s.dequeue.getCheck e.key = .ok d := hcheck
  obtain ⟨hqueue, -⟩ := id h
  rw [exec_get, takes_of_heads h (decide_eq_true hcode), takeGet_of_ok (admitRead_of_admitted (s := s.dequeue) hr) hd,
    startGet_eq]
  simp only [State.dequeue, hqueue, List.tail_cons]

/-- An idle array without a request of slot C grants a READ that waits in slot H (R107). -/
theorem grant_of_waits_h {s : State} {op : ArrayOp} (hw : waits s .h op) (hop : op.isWrite = false)
    (hb : s.arr.busy = none) (he : s.arr.erase = none) (hc : s.arr.c = none) : s.grant = s.start .h s.aged := by
  have hcNot : s.eligible .c = false := by
    refine not_eligible fun ⟨x, hx, _⟩ => ?_
    have hx : s.arr.c = some { op := x, inProgress := false } := hx
    rw [hc] at hx
    exact nomatch hx
  have hhYes : s.eligible .h = true := by
    refine eligible_iff.mpr ⟨op, hw, fun ⟨sec, _, _, hx, _⟩ => ?_, fun h => ?_, nofun⟩
    · rw [hx] at hop
      exact nomatch hop
    · rw [hop] at h
      exact nomatch h
  rw [grant_idle hb he, hcNot, hhYes]
  rfl

/-- Settles O28: the state answers in the order of R49, and a READ placed in slot H of an idle array begins at once. -/
theorem getTaken : Obligations.GetTaken := by
  intro s e rest h hcode hr
  refine ⟨fun d hk hm hd hp => ?taken, fun hk => ?badKey, fun hk hm => ?hidden, fun hk hm hd => ?notFound⟩
  case taken =>
    have hexec := exec_get_of_ok h hcode hr (getCheck_found hk hm hd hp)
    refine ⟨endsIn_of_same hexec rfl _, fun hb he _ hc => ⟨_, hexec, ?_⟩⟩
    have hput := put_joins (a := s.arr) (x := .h) (op := .readRecord d.loc.sector d.loc.line (.lines d.lines))
      fun x hx => by rw [he] at hx; exact nomatch hx
    rw [hput]
    have hw : waits { s with
        cu := { s.cu with queue := rest, executing := some (snapshotOf e d) }
        arr := s.arr.setSlot .h
          (some { op := .readRecord d.loc.sector d.loc.line (.lines d.lines), inProgress := false }) } .h
        (.readRecord d.loc.sector d.loc.line (.lines d.lines)) := rfl
    rw [grant_of_waits_h hw rfl hb he hc]
    exact ⟨start_flash hw _, congrArg Sequencer.h (start_arr hw _)⟩
  case badKey => exact exec_get_of_error h hcode hr (getCheck_badKey hk)
  case hidden => exact exec_get_of_error h hcode hr (getCheck_hidden hk hm)
  case notFound => exact exec_get_of_error h hcode hr (getCheck_missing hk hm hd)

end Sys2Proof.Machine
end

section
/-! SUPPORT. NEXT, and the end of the READ of a GET. -/

namespace Sys2Proof.Machine

set_option Elab.async false

/-! ### NEXT -/

/-- The first entry of a sorted directory that passes a test has the smallest key of those that pass it. -/
theorem find?_of_sorted {d : List DirEntry} {p : DirEntry → Bool} (hs : dirSorted d = true) {x : DirEntry}
    (hx : x ∈ d) (hp : p x = true) (hmin : ∀ y ∈ d, p y = true → x.key ≤ y.key) : d.find? p = some x := by
  induction d with
  | nil => exact nomatch hx
  | cons a rest ih =>
    unfold dirSorted at hs
    obtain ⟨hlt, hrest⟩ := (Bool.and_eq_true _ _).mp hs
    rcases List.mem_cons.mp hx with rfl | hx
    · exact List.find?_cons_of_pos hp
    · have hkey : a.key < x.key := of_decide_eq_true (List.all_eq_true.mp hlt x hx)
      have ha : ¬ p a = true := fun ha => absurd (hmin a (List.mem_cons_self ..) ha) (BitVec.not_le.mpr hkey)
      rw [List.find?_cons_of_neg ha]
      exact ih hrest hx fun y hy => hmin y (List.mem_cons_of_mem _ hy)

theorem find?_qualifies {s : State} {k : Key} {d : DirEntry} :
    (decide (k < d.key) && isUserKey d.key && d.present && !s.isHidden d.key) = true ↔ nextQualifies s k d := by
  rw [Bool.and_eq_true, Bool.and_eq_true, Bool.and_eq_true, decide_eq_true_iff, isUserKey_iff, Bool.not_eq_true',
    ← Bool.not_eq_true, isHidden_iff, and_assoc, and_assoc]

/-- NEXT's entry is the qualifying one of the smallest key. -/
theorem nextEntry_of_least {s : State} {k : Key} {d : DirEntry} (hs : dirSorted s.dir = true) (hd : d ∈ s.dir)
    (hq : nextQualifies s k d) (hmin : ∀ x ∈ s.dir, nextQualifies s k x → d.key ≤ x.key) :
    s.nextEntry k s.isHidden = some d :=
  find?_of_sorted hs hd (find?_qualifies.mpr hq) fun y hy hp => hmin y hy (find?_qualifies.mp hp)

theorem nextEntry_none {s : State} {k : Key} (h : ∀ x ∈ s.dir, ¬ nextQualifies s k x) :
    s.nextEntry k s.isHidden = none :=
  List.find?_eq_none.mpr fun x hx hp => h x hx (find?_qualifies.mp hp)

/-- Of the entries that qualify one has the smallest key. -/
theorem exists_least_qualifying {s : State} {k : Key} (h : ∃ d ∈ s.dir, nextQualifies s k d) :
    ∃ d ∈ s.dir, nextQualifies s k d ∧ ∀ x ∈ s.dir, nextQualifies s k x → d.key ≤ x.key := by
  have hne : {d | d ∈ s.dir ∧ nextQualifies s k d}.Nonempty := h
  have hfin : {d | d ∈ s.dir ∧ nextQualifies s k d}.Finite := s.dir.finite_toSet.subset fun _ hd => hd.1
  obtain ⟨d, ⟨hd, hq⟩, hmin⟩ := Set.exists_min_image _ (fun d : DirEntry => d.key.toNat) hfin hne
  exact ⟨d, hd, hq, fun x hx hqx => BitVec.le_def.mpr (hmin x ⟨hx, hqx⟩)⟩

theorem takeNext_of_some {s : State} {e : CmdEntry} {d : DirEntry} (hr : s.admitRead = none)
    (h : s.nextEntry e.key s.isHidden = some d) : s.takeNext e = s.answer e .ok d.seq d.length d.key.toNat := by
  unfold State.takeNext
  rw [hr, h]

theorem takeNext_of_none {s : State} {e : CmdEntry} (hr : s.admitRead = none)
    (h : s.nextEntry e.key s.isHidden = none) : s.takeNext e = s.answer e .notFound 0 0 0 := by
  unfold State.takeNext
  rw [hr, h]

/-- Settles O30, by the order of the directory's keys. -/
theorem next : Obligations.Next := by
  intro s e rest h hcode hr hs
  have hexec : exec .next s = .next (s.dequeue.takeNext e) := by
    rw [exec_nextCommand, takes_of_heads h (decide_eq_true hcode)]
  have hd : s.dequeue.admitRead = none := admitRead_of_admitted (s := s.dequeue) hr
  refine ⟨fun d hmem hq hmin => ?least, fun hnone => ?none, exists_least_qualifying⟩
  case least =>
    have hn : s.dequeue.nextEntry e.key s.dequeue.isHidden = some d := nextEntry_of_least hs hmem hq hmin
    rw [hexec, takeNext_of_some hd hn]
    exact congrArg Host.Outcome.next (dequeue_answer_of_heads h .ok _ _ _)
  case none =>
    have hn : s.dequeue.nextEntry e.key s.dequeue.isHidden = none := nextEntry_none hnone
    rw [hexec, takeNext_of_none hd hn]
    exact congrArg Host.Outcome.next (dequeue_answer_of_heads h .notFound _ _ _)

/-! ### The READ of a GET -/

theorem accepts_some {g : GetFlight} {rr : ReadResult} {rec : Record} (hok : rr.checkOk = true)
    (hp : parseRecord rr.bytes = some rec) (hkind : rec.kind = .value) (hkey : rec.key = g.key)
    (hseq : rec.seq = g.seq) : g.accepts rr = some rec := by
  unfold GetFlight.accepts
  rw [hp]
  simp [hok, hkind, hkey, hseq]

theorem accepts_none {g : GetFlight} {rr : ReadResult}
    (h : rr.checkOk = false ∨ ∀ rec, parseRecord rr.bytes = some rec →
      rec.kind ≠ .value ∨ rec.key ≠ g.key ∨ rec.seq ≠ g.seq) : g.accepts rr = none := by
  unfold GetFlight.accepts
  cases hp : parseRecord rr.bytes with
  | none => rfl
  | some rec =>
    refine if_neg fun hall => ?_
    simp only [Bool.and_eq_true, decide_eq_true_eq] at hall
    obtain ⟨⟨⟨hok, hkind⟩, hkey⟩, hseq⟩ := hall
    rcases h with h | h
    · rw [hok] at h
      exact nomatch h
    · rcases h rec hp with h | h | h
      · exact h hkind
      · exact h hkey
      · exact h hseq

theorem getEnds_of_accepts {s : State} {g : GetFlight} {rr : ReadResult} {rec : Record} (h : g.accepts rr = some rec) :
    s.getEnds g rr = { s with
      win := windowLoaded s.win rec.payload
      cu := { s.cu with
        executing := none
        completions := s.cu.completions ++ [getDone g .ok rec.seq rec.length rec.key] } } := by
  unfold State.getEnds
  rw [h]
  simp only [State.postGet, State.post, State.loadOutput, BitVec.ofNat_toNat, BitVec.setWidth_eq]
  rfl

theorem getEnds_of_not_accepts {s : State} {g : GetFlight} {rr : ReadResult} (h : g.accepts rr = none) :
    s.getEnds g rr = { s with
      win := s.win.raised .readFault
      cu := { s.cu with
        executing := none
        completions := s.cu.completions ++ [getDone g .arrayFault 0 0 0#16] } } := by
  unfold State.getEnds
  rw [h]
  rfl

theorem exec_getReadEnd {s : State} {g : GetFlight} {sec : SectorIx} {p : Nat} {len : ReadLen} (r : ReadOutcome)
    (hg : s.cu.executing = some g) (hop : s.inHand .h = some (.readRecord sec p len)) :
    exec (.getReadEnd r) s =
      grantAfter (((s.readRecord sec p len r).2.release .h).getEnds g (s.readRecord sec p len r).1).takeHead := by
  change execGetReadEnd r s = _
  unfold execGetReadEnd
  rw [hg, hop]

theorem inHand_of {s : State} {x : SlotId} {op : ArrayOp} (hb : s.arr.busy = some x)
    (hs : s.arr.slot x = some { op := op, inProgress := true }) : s.inHand x = some op := by
  unfold State.inHand
  rw [if_pos hb, hs]
  rfl

/-- The head is taken as the command of its row takes it (R152, R159). -/
theorem takeHead_of_takes {s : State} {e : CmdEntry} {rest : List CmdEntry} {c : Instr} (hqueue : s.cu.queue = e :: rest)
    (hc : (c, e.code) ∈ takes) : s.takeHead = exec c s := by
  unfold State.takeHead
  rw [hqueue]
  simp only [takes, List.mem_cons, List.not_mem_nil, or_false, Prod.mk.injEq] at hc
  rcases hc with ⟨rfl, h⟩ | ⟨rfl, h⟩ | ⟨rfl, h⟩ | ⟨rfl, h⟩ | ⟨rfl, h⟩ | ⟨rfl, h⟩ | ⟨rfl, h⟩ | ⟨rfl, h⟩ |
    ⟨rfl, h⟩ | ⟨rfl, h⟩ | ⟨rfl, h⟩ | ⟨rfl, h⟩ | ⟨rfl, h⟩ | ⟨rfl, h⟩ <;>
    (simp only [h]; rfl)

theorem takeHead_of_undefined {s : State} {e : CmdEntry} {rest : List CmdEntry} (hqueue : s.cu.queue = e :: rest)
    (hc : ∀ c, (c, e.code) ∉ takes) : s.takeHead = exec .unknownCommand s := by
  unfold State.takeHead
  rw [hqueue]
  have hne {c : Instr} {code : Byte} (h : (c, code) ∈ takes) : e.code ≠ code := fun he => hc c (he ▸ h)
  simp only [if_neg (hne (c := .get) (code := codeGet) (by decide)),
    if_neg (hne (c := .next) (code := codeNext) (by decide)), if_neg (hne (c := .put) (code := codePut) (by decide)),
    if_neg (hne (c := .delete) (code := codeDelete) (by decide)),
    if_neg (hne (c := .discard) (code := codeDiscard) (by decide)),
    if_neg (hne (c := .commit) (code := codeCommit) (by decide)),
    if_neg (hne (c := .setting) (code := codeSetting) (by decide)),
    if_neg (hne (c := .saveSettings) (code := codeSaveSettings) (by decide)),
    if_neg (hne (c := .guardSet) (code := codeGuardSet) (by decide)),
    if_neg (hne (c := .guardFix) (code := codeGuardFix) (by decide)),
    if_neg (hne (c := .sectorQuery) (code := codeSectorQuery) (by decide)),
    if_neg (hne (c := .reclaim) (code := codeReclaim) (by decide)),
    if_neg (hne (c := .mount) (code := codeMount) (by decide)),
    if_neg (hne (c := .format) (code := codeFormat) (by decide))]
  rfl

/-- Without a place left for its completion the head stands (R151). -/
theorem takeHead_of_full {s : State} (h : 8 ≤ s.cu.completions.length + s.cu.inFlight.length) :
    s.takeHead = .next s := by
  have hnone (test : Byte → Bool) : s.takeable test = none := by
    refine Option.eq_none_iff_forall_ne_some.mpr fun e he => ?_
    obtain ⟨-, hroom⟩ := mayTake_places (takeable_some he).2.1
    have hroom : s.cu.completions.length + s.cu.inFlight.length + 1 ≤ 8 := hroom
    omega
  rcases takeHead_cases s with ⟨-, hx⟩ | ⟨c, hc, hx⟩
  · exact hx
  · rw [hx]
    simp only [hostCommands, List.mem_cons, List.not_mem_nil, or_false] at hc
    rcases hc with rfl | rfl | rfl | rfl | rfl | rfl | rfl | rfl | rfl | rfl | rfl | rfl | rfl | rfl | rfl
    · rw [exec_get, takes_of_none (hnone _)]
    · rw [exec_nextCommand, takes_of_none (hnone _)]
    · rw [exec_put, takes_of_none (hnone _)]
    · rw [exec_delete, takes_of_none (hnone _)]
    · rw [exec_discard, takes_of_none (hnone _)]
    · rw [exec_commit, takes_of_none (hnone _)]
    · rw [exec_setting, takes_of_none (hnone _)]
    · rw [exec_saveSettings, takes_of_none (hnone _)]
    · rw [exec_guardSet, takes_of_none (hnone _)]
    · rw [exec_guardFix, takes_of_none (hnone _)]
    · rw [exec_sectorQuery, takes_of_none (hnone _)]
    · rw [exec_reclaim, takes_of_none (hnone _)]
    · rw [exec_mount, takes_of_none (hnone _)]
    · rw [exec_format, takes_of_none (hnone _)]
    · rw [exec_unknownCommand, takes_of_none (hnone _)]

theorem takeHead_of_empty {s : State} (h : s.cu.queue = []) : s.takeHead = .next s := by
  unfold State.takeHead
  rw [h]

/-- Settles O29. -/
theorem getReadEnd : Obligations.GetReadEnd := by
  intro s r g sec p len rr n win done u hg hb hh hrr hn hdone hu
  have hexec : exec (.getReadEnd r) s = grantAfter u.takeHead := by
    rw [exec_getReadEnd r hg (inHand_of hb hh), hrr]
    obtain ⟨d, hd⟩ := readRecord_drawn s sec p len r
    have hdn : d = n := by rw [← hn, hd]
    rw [hd, hdn]
    refine congrArg (fun x : State => grantAfter x.takeHead) ?_
    rw [hu]
    rcases hdone with ⟨rec, hok, hparse, hkind, hkey, hseq, rfl, rfl⟩ | ⟨hbad, rfl, rfl⟩
    · exact getEnds_of_accepts (accepts_some hok hparse hkind hkey hseq)
    · exact getEnds_of_not_accepts (accepts_none hbad)
  have hflash : u.flash = s.flash := by rw [hu]; rfl
  have hqueue : u.cu.queue = s.cu.queue := by rw [hu]
  refine ⟨fun hheld => endsIn_of_same (hexec.trans ?_) hflash _, fun e rest he =>
    ⟨fun c hc => hexec.trans (congrArg grantAfter (takeHead_of_takes (hqueue.trans he) hc)),
      fun hc => hexec.trans (congrArg grantAfter (takeHead_of_undefined (hqueue.trans he) hc))⟩⟩
  rcases hheld with hempty | hfull
  · rw [takeHead_of_empty (hqueue.trans hempty)]
    rfl
  · have hfull : 8 ≤ u.cu.completions.length + u.cu.inFlight.length := by
      rw [hu]
      simp only [List.length_append, List.length_singleton]
      omega
    rw [takeHead_of_full hfull]
    rfl

end Sys2Proof.Machine
end

section
/-! SUPPORT. PUT, DELETE, GUARD-SET and GUARD-FIX. -/

namespace Sys2Proof.Machine

set_option Elab.async false

/-! ### The staging list -/

theorem stagedFind_append {l1 l2 : List Staged} {o : Staged} {k : Key} (h : ∀ x ∈ l1, x.key ≠ k) (ho : o.key = k) :
    stagedFind (l1 ++ o :: l2) k = some o := by
  induction l1 with
  | nil => exact if_pos ho
  | cons x l1 ih =>
    rw [List.forall_mem_cons] at h
    exact (if_neg h.1).trans (ih h.2)

theorem stagedFind_eq_none {l : List Staged} {k : Key} (h : ∀ x ∈ l, x.key ≠ k) : stagedFind l k = none := by
  induction l with
  | nil => rfl
  | cons x l ih =>
    rw [List.forall_mem_cons] at h
    exact (if_neg h.1).trans (ih h.2)

theorem stagedReplace_append {l1 l2 : List Staged} {o n : Staged} (h : ∀ x ∈ l1, x.key ≠ n.key) (ho : o.key = n.key) :
    stagedReplace (l1 ++ o :: l2) n = l1 ++ n :: l2 := by
  induction l1 with
  | nil => exact if_pos ho
  | cons x l1 ih =>
    rw [List.forall_mem_cons] at h
    exact (if_neg h.1).trans (congrArg (x :: ·) (ih h.2))

theorem stagedRemove_append {l1 l2 : List Staged} {o : Staged} {k : Key} (h : ∀ x ∈ l1 ++ l2, x.key ≠ k)
    (ho : o.key = k) : stagedRemove (l1 ++ o :: l2) k = l1 ++ l2 := by
  have hkeep {l : List Staged} (hl : ∀ x ∈ l, x.key ≠ k) : l.filter (fun o => decide (o.key ≠ k)) = l :=
    List.filter_eq_self.mpr fun x hx => decide_eq_true (hl x hx)
  rw [List.forall_mem_append] at h
  rw [stagedRemove, List.filter_append, List.filter_cons_of_neg (by simp [ho]), hkeep h.1, hkeep h.2]

/-! ### The checks of PUT and DELETE in MOUNTED -/

/-- The checks of PUT behind those of the store state and of a commit in flight (R65). -/
theorem putCheck_of_admitted {s : State} {e : CmdEntry} (h : s.admitStaging = none) : s.putCheck e =
    if ¬ userKey e.key then some .badKey
    else if 242 < e.len.toNat ∨ s.win.input.length < e.len.toNat then some .badLength
    else if s.guardMode e.key ≠ .none then some .protected_
    else if s.stagingFull e.key e.len.toNat = true then some .stagingFull
    else if s.noPlace e.key = true then some .noDirectorySpace
    else none := by
  unfold State.putCheck
  rw [h]
  simp only [isUserKey, State.isGuarded, Bool.not_eq_true', decide_eq_false_iff_not, Bool.or_eq_true, decide_eq_true_eq]
  rfl

theorem deleteCheck_of_admitted {s : State} {e : CmdEntry} (h : s.admitStaging = none) : s.deleteCheck e =
    if ¬ userKey e.key then some .badKey
    else if s.guardMode e.key ≠ .none then some .protected_
    else none := by
  unfold State.deleteCheck
  rw [h]
  simp only [isUserKey, State.isGuarded, Bool.not_eq_true', decide_eq_false_iff_not, decide_eq_true_eq]

/-- Check 6 of R65 for a key that is staged already. -/
theorem stagingFull_of_staged {s : State} {k : Key} {o : Staged} (h : stagedFind s.tm.staging k = some o) (n : Nat) :
    s.stagingFull k n = true ↔ 2048 < stagedBytesOf s.tm.staging - o.bytes + n := by
  unfold State.stagingFull
  rw [h]
  exact decide_eq_true_iff

/-- Check 6 of R65 for a new key. -/
theorem stagingFull_of_not_staged {s : State} {k : Key} (h : stagedFind s.tm.staging k = none) (n : Nat) :
    s.stagingFull k n = true ↔ 16 ≤ s.tm.staging.length ∨ 2048 < stagedBytesOf s.tm.staging + n := by
  unfold State.stagingFull
  rw [h]
  rw [Bool.or_eq_true]
  exact or_congr decide_eq_true_iff decide_eq_true_iff

theorem noPlace_of_staged {s : State} {k : Key} {o : Staged} (h : stagedFind s.tm.staging k = some o) :
    ¬ s.noPlace k = true := by
  unfold State.noPlace
  rw [h]
  exact Bool.false_ne_true

theorem noPlace_of_not_staged {s : State} {k : Key} (h : stagedFind s.tm.staging k = none) :
    s.noPlace k = true ↔ s.entry k = none ∧ 1024 < s.dir.length + s.newStaged + 1 := by
  unfold State.noPlace
  rw [h, Bool.and_eq_true, decide_eq_true_iff]
  exact and_congr_left' Option.isNone_iff_eq_none

/-! ### PUT -/

theorem takePut_of_none {s : State} {e : CmdEntry} (h : s.putCheck e = none) :
    s.takePut e = (s.stagePut e).answerStaged e .ok := by
  unfold State.takePut
  rw [h]

/-- A PUT that passes its checks leaves the list with its operation, and the input buffer empty (R66). -/
theorem exec_put_of_none {s : State} {e : CmdEntry} {rest : List CmdEntry} {l : List Staged} (h : s.heads e rest)
    (hcode : e.code = 0x20#8) (hcheck : s.putCheck e = none)
    (hl : stagedPut s.tm.staging { key := e.key, value := some (s.win.input.take e.len.toNat) } = l) :
    exec .put s = .next { staged s l with
      cu := s.cu.answered rest (stagedDone e .ok l), win := { s.win with input := [] } } := by
  have hd : s.dequeue.putCheck e = none := hcheck
  obtain ⟨hqueue, -⟩ := id h
  rw [exec_put, takes_of_heads h (decide_eq_true hcode), takePut_of_none hd, ← hl]
  simp only [State.dequeue, hqueue, List.tail_cons]
  rfl

theorem exec_put_of_protected {s : State} {e : CmdEntry} {rest : List CmdEntry} (h : s.heads e rest)
    (hcode : e.code = 0x20#8) (hcheck : s.putCheck e = some .protected_) :
    exec .put s = .next { s with
      cu := s.cu.answered rest (stagedDone e .protected_ s.tm.staging), win := s.win.raised .guardRefusal } := by
  have hd : s.dequeue.putCheck e = some .protected_ := hcheck
  rw [exec_put, takes_of_heads h (decide_eq_true hcode), takePut_of_putCheck hd]
  exact congrArg (fun x : State => Host.Outcome.next { x with win := s.win.raised .guardRefusal })
    (dequeue_answerStaged_of_heads h .protected_)

theorem admitStaging_of_stagingTaken {s : State} {e : CmdEntry} {rest : List CmdEntry} {code : Byte}
    (h : stagingTaken s e rest code) (hc : s.tm.commit = none) : s.admitStaging = none :=
  admitStaging_of_no_commit h.2.2 hc

/-- Settles O31, by the checks of R65 in their order. -/
theorem putStagesOrRefuses : Obligations.PutStagesOrRefuses := by
  refine ⟨fun s e rest h hc hk hlen hin hg => ?stages, fun s e rest h => ?refuses⟩
  case stages =>
    obtain ⟨hheads, hcode, -⟩ := id h
    have hcheck := putCheck_of_admitted (e := e) (admitStaging_of_stagingTaken h hc)
    rw [if_neg (not_not.mpr hk), if_neg (by omega), if_neg (not_not.mpr hg)] at hcheck
    refine ⟨fun l hnew hops hbytes hplace hl => ?new, fun l l1 l2 o hst ho h1 hbytes hl => ?known⟩
    case new =>
      have hfind := stagedFind_eq_none hnew
      refine exec_put_of_none hheads hcode ?_ ?_
      · rw [hcheck, if_neg (by rw [stagingFull_of_not_staged hfind]; omega),
          if_neg (by rw [noPlace_of_not_staged hfind]; exact fun ⟨hn, hx⟩ => absurd (hplace hn) (by omega))]
      · rw [hl, stagedPut, hfind]
    case known =>
      have hfind : stagedFind s.tm.staging e.key = some o := hst ▸ stagedFind_append h1 ho
      refine exec_put_of_none hheads hcode ?_ ?_
      · rw [hcheck, if_neg (by rw [stagingFull_of_staged hfind]; omega), if_neg (noPlace_of_staged hfind)]
      · rw [hl, stagedPut, hfind, hst]
        exact stagedReplace_append h1 ho
  case refuses =>
    obtain ⟨hheads, hcode, hmounted⟩ := id h
    have refused {st : Status} (hst : s.putCheck e = some st) (hne : st ≠ .protected_) :=
      exec_put_of_putCheck hheads hcode hst hne
    refine ⟨fun hc => refused (putCheck_of_admitStaging (admitStaging_of_commit hmounted hc) e) (by decide),
      fun hc hk => refused ?_ (by decide), fun hc hk hlen => refused ?_ (by decide), fun hc hk hlen hin =>
        ⟨fun hg => exec_put_of_protected hheads hcode ?_, fun hg => ⟨fun l1 l2 o hst ho h1 hbytes => refused ?_ (by decide),
          fun hnew hfull => refused ?_ (by decide), fun hnew hops hbytes hentry hdir => refused ?_ (by decide)⟩⟩⟩
    all_goals rw [putCheck_of_admitted (admitStaging_of_stagingTaken h hc)]
    · exact if_pos hk
    · rw [if_neg (not_not.mpr hk), if_pos hlen]
    · rw [if_neg (not_not.mpr hk), if_neg (by omega), if_pos hg]
    · have hfind : stagedFind s.tm.staging e.key = some o := hst ▸ stagedFind_append h1 ho
      rw [if_neg (not_not.mpr hk), if_neg (by omega), if_neg (not_not.mpr hg),
        if_pos ((stagingFull_of_staged hfind _).mpr hbytes)]
    · rw [if_neg (not_not.mpr hk), if_neg (by omega), if_neg (not_not.mpr hg),
        if_pos ((stagingFull_of_not_staged (stagedFind_eq_none hnew) _).mpr hfull)]
    · have hfind := stagedFind_eq_none hnew
      rw [if_neg (not_not.mpr hk), if_neg (by omega), if_neg (not_not.mpr hg),
        if_neg (by rw [stagingFull_of_not_staged hfind]; omega), if_pos ((noPlace_of_not_staged hfind).mpr ⟨hentry, hdir⟩)]

/-! ### DELETE -/

theorem takeDelete_of_none {s : State} {e : CmdEntry} (h : s.deleteCheck e = none) :
    s.takeDelete e = (s.setStaging (s.deleteStaged e.key).1).answerStaged e (s.deleteStaged e.key).2 := by
  unfold State.takeDelete
  rw [h]

theorem exec_delete_of_protected {s : State} {e : CmdEntry} {rest : List CmdEntry} (h : s.heads e rest)
    (hcode : e.code = 0x21#8) (hcheck : s.deleteCheck e = some .protected_) :
    exec .delete s = .next { s with
      cu := s.cu.answered rest (stagedDone e .protected_ s.tm.staging), win := s.win.raised .guardRefusal } := by
  have hd : s.dequeue.deleteCheck e = some .protected_ := hcheck
  rw [exec_delete, takes_of_heads h (decide_eq_true hcode), takeDelete_of_deleteCheck hd]
  exact congrArg (fun x : State => Host.Outcome.next { x with win := s.win.raised .guardRefusal })
    (dequeue_answerStaged_of_heads h .protected_)

/-- A DELETE that passes its checks leaves the list of its row of R67. -/
theorem exec_delete_of_none {s : State} {e : CmdEntry} {rest : List CmdEntry} {l : List Staged} {st : Status}
    (h : s.heads e rest) (hcode : e.code = 0x21#8) (hcheck : s.deleteCheck e = none)
    (hrow : s.deleteStaged e.key = (l, st)) :
    exec .delete s = .next { staged s l with cu := s.cu.answered rest (stagedDone e st l) } := by
  have hd : s.dequeue.deleteCheck e = none := hcheck
  have hr : s.dequeue.deleteStaged e.key = (l, st) := hrow
  rw [exec_delete, takes_of_heads h (decide_eq_true hcode), takeDelete_of_none hd, hr]
  exact congrArg (fun x : State => Host.Outcome.next { x with tm := { s.tm with staging := l } })
    (dequeue_answer_of_heads h st 0 _ _)

/-- The rows of R67 for a key with a staged value. -/
theorem deleteStaged_of_put {s : State} {k : Key} {o : Staged} (h : stagedFind s.tm.staging k = some o)
    (ho : o.value.isSome = true) : s.deleteStaged k =
      (if s.isPresent k = true then stagedReplace s.tm.staging { key := k, value := none }
        else stagedRemove s.tm.staging k, .ok) := by
  unfold State.deleteStaged
  rw [h]
  dsimp only
  rw [if_pos ho]
  split <;> rfl

/-- The row of R67 for a key with a staged deletion. -/
theorem deleteStaged_of_deletion {s : State} {k : Key} {o : Staged} (h : stagedFind s.tm.staging k = some o)
    (ho : ¬ o.value.isSome = true) : s.deleteStaged k = (s.tm.staging, .ok) := by
  unfold State.deleteStaged
  rw [h]
  exact if_neg ho

/-- The rows of R67 for a key that is not staged. -/
theorem deleteStaged_of_not_staged {s : State} {k : Key} (h : stagedFind s.tm.staging k = none) :
    s.deleteStaged k =
      if s.isPresent k = true then
        if 16 ≤ s.tm.staging.length then (s.tm.staging, .stagingFull)
        else (s.tm.staging ++ [{ key := k, value := none }], .ok)
      else (s.tm.staging, .notFound) := by
  unfold State.deleteStaged
  rw [h]
  rfl

/-- Settles O32, by the rows of R67. -/
theorem delete : Obligations.Delete := by
  intro s e rest h
  obtain ⟨hheads, hcode, hmounted⟩ := id h
  dsimp only
  refine ⟨fun hc => exec_delete_of_deleteCheck hheads hcode
      (deleteCheck_of_admitStaging (admitStaging_of_commit hmounted hc) e) (by decide),
    fun hc hk => ?_, fun hc hk hg => ?_, fun hc hk hg => ?_⟩
  all_goals have hcheck := deleteCheck_of_admitted (e := e) (admitStaging_of_stagingTaken h hc)
  · rw [if_pos hk] at hcheck
    exact exec_delete_of_deleteCheck hheads hcode hcheck (by decide)
  · rw [if_neg (not_not.mpr hk), if_pos hg] at hcheck
    exact exec_delete_of_protected hheads hcode hcheck
  · rw [if_neg (not_not.mpr hk), if_neg (not_not.mpr hg)] at hcheck
    refine ⟨fun l1 l2 v hst hother => ⟨fun hp => ?_, fun hp => ?_⟩, fun l1 l2 hst hother => ?_,
      fun hnew => ⟨fun hp hops => ?_, fun hp hops => ?_, fun hp => ?_⟩⟩ <;>
      refine exec_delete_of_none hheads hcode hcheck ?_
    · have hfind : stagedFind s.tm.staging e.key = some { key := e.key, value := some v } :=
        hst ▸ stagedFind_append (fun x hx => hother x (List.mem_append_left _ hx)) rfl
      rw [deleteStaged_of_put hfind rfl, hp, if_neg Bool.false_ne_true, hst, stagedRemove_append hother rfl]
    · have hfind : stagedFind s.tm.staging e.key = some { key := e.key, value := some v } :=
        hst ▸ stagedFind_append (fun x hx => hother x (List.mem_append_left _ hx)) rfl
      rw [deleteStaged_of_put hfind rfl, if_pos hp, hst,
        stagedReplace_append (o := { key := e.key, value := some v }) (n := { key := e.key, value := none })
          (fun x hx => hother x (List.mem_append_left _ hx)) rfl]
    · have hfind : stagedFind s.tm.staging e.key = some { key := e.key, value := none } :=
        hst ▸ stagedFind_append (fun x hx => hother x (List.mem_append_left _ hx)) rfl
      exact deleteStaged_of_deletion hfind nofun
    all_goals rw [deleteStaged_of_not_staged (stagedFind_eq_none hnew), hp]
    · rw [if_pos rfl, if_neg (by omega)]
    · rw [if_pos rfl, if_pos hops]
    · exact if_neg Bool.false_ne_true

/-! ### GUARD-SET and GUARD-FIX -/

theorem rangeAcceptable_iff {low high : Key} : rangeAcceptable low high = true ↔ ¬ badRange low high := by
  unfold rangeAcceptable badRange
  simp only [Bool.and_eq_true, decide_eq_true_eq, not_or, BitVec.not_lt, and_assoc]

theorem highKey_eq (e : CmdEntry) : e.highKey = BitVec.ofNat 16 (256 * e.arg2.toNat + e.arg3.toNat) := by
  have h : (256 * e.arg2.toNat + e.arg3.toNat) < 2 ^ 16 := by
    have := e.arg2.isLt
    have := e.arg3.isLt
    omega
  refine BitVec.eq_of_toNat_eq ?_
  rw [BitVec.toNat_ofNat, Nat.mod_eq_of_lt h]
  have hor : (e.arg2.toNat <<< 8 ||| e.arg3.toNat) = 256 * e.arg2.toNat + e.arg3.toNat := by
    rw [← Nat.shiftLeft_add_eq_or_of_lt e.arg3.isLt, Nat.shiftLeft_eq]
    omega
  exact (BitVec.toNat_append _ _).trans hor

/-- The checks of GUARD-SET on a slot (R143). -/
theorem guardSetCheck_eq (s : State) (e : CmdEntry) (i : GuardIx) : s.guardSetCheck e i =
    if 2 < e.arg1.toNat ∨ (e.arg1.toNat ≠ 0 ∧ badRange e.key e.highKey) then some .badArgument
    else if (s.guards.get i).fixed = true then some .protected_
    else none := by
  unfold State.guardSetCheck
  have hrange : rangeAcceptable e.key e.highKey = false ↔ badRange e.key e.highKey := by
    rw [← Bool.not_eq_true, rangeAcceptable_iff, not_not]
  by_cases hmode : 2 < e.arg1.toNat
  · rw [if_pos hmode, if_pos (.inl hmode)]
  · rw [if_neg hmode]
    simp only [hmode, false_or, hrange]

theorem takeGuardSet_of_refused {s : State} {e : CmdEntry} {i : GuardIx} {st : Status} (hst : s.store.st ≠ .formatting)
    (hi : e.arg0.toNat = i.val) (h : s.guardSetCheck e i = some st) : s.takeGuardSet e = s.answerSlot e st i := by
  unfold State.takeGuardSet
  obtain ⟨n, hn⟩ := i
  subst hi
  rw [admitLocal_of_not_formatting hst]
  dsimp only
  rw [dif_pos hn, h]

theorem takeGuardSet_of_passed {s : State} {e : CmdEntry} {i : GuardIx} (hst : s.store.st ≠ .formatting)
    (hi : e.arg0.toNat = i.val) (h : s.guardSetCheck e i = none) :
    s.takeGuardSet e = (s.setGuard i e.guardSlot).answerSlot e .ok i := by
  unfold State.takeGuardSet
  obtain ⟨n, hn⟩ := i
  subst hi
  rw [admitLocal_of_not_formatting hst]
  dsimp only
  rw [dif_pos hn, h]

theorem takeGuardSet_of_no_slot {s : State} {e : CmdEntry} (hst : s.store.st ≠ .formatting) (hi : 8 ≤ e.arg0.toNat) :
    s.takeGuardSet e = s.answer e .badArgument 0 0 0 := by
  unfold State.takeGuardSet
  rw [admitLocal_of_not_formatting hst]
  exact dif_neg (by omega)

theorem takeGuardFix_of_slot {s : State} {e : CmdEntry} {i : GuardIx} (hst : s.store.st ≠ .formatting)
    (hi : e.arg0.toNat = i.val) : s.takeGuardFix e =
      if (s.guards.get i).inUse = true then
        (s.setGuard i { s.guards.get i with fixed := true }).answerSlot e .ok i
      else s.answerSlot e .badArgument i := by
  unfold State.takeGuardFix
  obtain ⟨n, hn⟩ := i
  subst hi
  rw [admitLocal_of_not_formatting hst]
  exact dif_pos hn

theorem takeGuardFix_of_no_slot {s : State} {e : CmdEntry} (hst : s.store.st ≠ .formatting) (hi : 8 ≤ e.arg0.toNat) :
    s.takeGuardFix e = s.answer e .badArgument 0 0 0 := by
  unfold State.takeGuardFix
  rw [admitLocal_of_not_formatting hst]
  exact dif_neg (by omega)

section Slots
variable {s : State} {e : CmdEntry} {rest : List CmdEntry}

/-- The completion that describes a slot, in the state that takes the head (R143). -/
theorem dequeue_answerSlot (h : s.heads e rest) (st : Status) (i : GuardIx) :
    s.dequeue.answerSlot e st i = { s with cu := s.cu.answered rest (slotDone e st i (s.guards.get i)) } :=
  dequeue_answer_of_heads h st _ _ _

/-- A slot written, and described as it then stands (R143, R144). -/
theorem dequeue_setGuard_answerSlot (h : s.heads e rest) (i : GuardIx) (g : GuardSlot) :
    (s.dequeue.setGuard i g).answerSlot e .ok i =
      { s with guards := s.guards.set i.val g i.isLt, cu := s.cu.answered rest (slotDone e .ok i g) } := by
  have hg : (s.guards.set i.val g i.isLt).get i = g := Vector.getElem_set_self ..
  have hslot := dequeue_answerSlot (s := { s with guards := s.guards.set i.val g i.isLt }) h .ok i
  rw [hg] at hslot
  exact hslot

theorem exec_guardSet_of_refused (h : s.heads e rest) (hcode : e.code = 0x38#8) (hst : s.store.st ≠ .formatting)
    {i : GuardIx} (hi : e.arg0.toNat = i.val) {st : Status} (hcheck : s.guardSetCheck e i = some st) :
    exec .guardSet s = .next { s with cu := s.cu.answered rest (slotDone e st i (s.guards.get i)) } := by
  have hd : s.dequeue.guardSetCheck e i = some st := hcheck
  rw [exec_guardSet, takes_of_heads h (decide_eq_true hcode), takeGuardSet_of_refused (s := s.dequeue) hst hi hd,
    dequeue_answerSlot h]

theorem exec_guardSet_of_passed (h : s.heads e rest) (hcode : e.code = 0x38#8) (hst : s.store.st ≠ .formatting)
    {i : GuardIx} (hi : e.arg0.toNat = i.val) (hcheck : s.guardSetCheck e i = none) :
    exec .guardSet s = .next { s with
      guards := s.guards.set i.val e.guardSlot i.isLt
      cu := s.cu.answered rest (slotDone e .ok i e.guardSlot) } := by
  have hd : s.dequeue.guardSetCheck e i = none := hcheck
  rw [exec_guardSet, takes_of_heads h (decide_eq_true hcode), takeGuardSet_of_passed (s := s.dequeue) hst hi hd,
    dequeue_setGuard_answerSlot h]

theorem exec_guardFix_of_slot (h : s.heads e rest) (hcode : e.code = 0x39#8) (hst : s.store.st ≠ .formatting)
    {i : GuardIx} (hi : e.arg0.toNat = i.val) : exec .guardFix s = .next
      (if (s.guards.get i).inUse = true then
        { s with
          guards := s.guards.set i.val { s.guards.get i with fixed := true } i.isLt
          cu := s.cu.answered rest (slotDone e .ok i { s.guards.get i with fixed := true }) }
      else { s with cu := s.cu.answered rest (slotDone e .badArgument i (s.guards.get i)) }) := by
  rw [exec_guardFix, takes_of_heads h (decide_eq_true hcode), takeGuardFix_of_slot (s := s.dequeue) hst hi,
    dequeue_setGuard_answerSlot h, dequeue_answerSlot h]
  rfl

/-- The slot GUARD-SET writes, by its mode (R143). -/
theorem guardSlot_of_mode : (e.arg1.toNat = 0 → e.guardSlot = GuardSlot.cleared) ∧
    (e.arg1.toNat = 1 → e.guardSlot =
      { inUse := true, low := e.key, high := e.highKey, mode := .writeGuarded, fixed := false }) ∧
    (e.arg1.toNat = 2 → e.guardSlot =
      { inUse := true, low := e.key, high := e.highKey, mode := .hidden, fixed := false }) := by
  unfold CmdEntry.guardSlot
  refine ⟨fun h => ?_, fun h => ?_, fun h => ?_⟩ <;> rw [h] <;> rfl

end Slots

/-- Settles O35, by the checks of R143 and R144 in their order. -/
theorem guardCommands : Obligations.GuardCommands := by
  refine ⟨fun s e rest h hcode hst => ⟨fun hi => ?noSet, fun i hi => ?set⟩, fun s e rest h hcode hst =>
    ⟨fun hi => ?noFix, fun i hi huse => ?notUsed, fun i g hi huse hg => ?fix⟩⟩
  case noSet =>
    rw [exec_guardSet, takes_of_heads h (decide_eq_true hcode), takeGuardSet_of_no_slot (s := s.dequeue) hst hi,
      dequeue_answer_of_heads h]
  case noFix =>
    rw [exec_guardFix, takes_of_heads h (decide_eq_true hcode), takeGuardFix_of_no_slot (s := s.dequeue) hst hi,
      dequeue_answer_of_heads h]
  case notUsed =>
    rw [exec_guardFix_of_slot h hcode hst hi, huse]
    rfl
  case fix => rw [exec_guardFix_of_slot h hcode hst hi, if_pos huse, hg]
  case set =>
    obtain ⟨hclear, hguarded, hhidden⟩ := guardSlot_of_mode (e := e)
    have hcheck := guardSetCheck_eq s e i
    have refused {st : Status} (hst' : s.guardSetCheck e i = some st) := exec_guardSet_of_refused h hcode hst hi hst'
    have passed (hst' : s.guardSetCheck e i = none) := exec_guardSet_of_passed h hcode hst hi hst'
    dsimp only
    rw [← highKey_eq]
    have slotNext (hmode : e.arg1.toNat = 0 ∨ (e.arg1.toNat ≤ 2 ∧ ¬ badRange e.key e.highKey)) :
        ¬ (2 < e.arg1.toNat ∨ (e.arg1.toNat ≠ 0 ∧ badRange e.key e.highKey)) := by
      rintro (hx | ⟨hx, hbad⟩) <;> rcases hmode with hmode | ⟨hmode, hgood⟩
      · omega
      · omega
      · exact hx hmode
      · exact hgood hbad
    have free (hmode : e.arg1.toNat = 0 ∨ (e.arg1.toNat ≤ 2 ∧ ¬ badRange e.key e.highKey))
        (hfix : (s.guards.get i).fixed = false) : s.guardSetCheck e i = none := by
      rw [hcheck, if_neg (slotNext hmode), hfix]
      rfl
    refine ⟨fun hmode => refused ?_, fun hmode hbad => refused ?_, fun hmode hfix => refused ?_, fun hmode hfix => ?_,
      fun hmode hgood hfix => ?_, fun hmode hgood hfix => ?_⟩
    · rw [hcheck, if_pos (.inl hmode)]
    · rw [hcheck, if_pos (.inr ⟨by omega, hbad⟩)]
    · rw [hcheck, if_neg (slotNext hmode), if_pos hfix]
    · rw [passed (free (.inl hmode) hfix), hclear hmode]
    · rw [passed (free (.inr ⟨by omega, hgood⟩) hfix), hguarded hmode]
    · rw [passed (free (.inr ⟨by omega, hgood⟩) hfix), hhidden hmode]

end Sys2Proof.Machine
end

section
/-! SUPPORT. The Log Writer's and the Command Unit's shared operations, each by what it makes of the state: a record
served, an opening begun, a background command ended. -/

namespace Sys2Proof.Machine

set_option Elab.async false

/-! ### Choosing -/

theorem bestOf_eq_none {α : Type} {better : α → α → Bool} {l : List α} : bestOf better l = none ↔ l = [] := by
  cases l with
  | nil => exact ⟨fun _ => rfl, fun _ => rfl⟩
  | cons x xs =>
    refine ⟨fun h => ?_, nofun⟩
    unfold bestOf at h
    split at h
    · exact nomatch h
    · split at h <;> exact nomatch h

theorem bestOf_mem {α : Type} {better : α → α → Bool} {l : List α} {v : α} (h : bestOf better l = some v) : v ∈ l := by
  induction l generalizing v with
  | nil => exact nomatch h
  | cons x xs ih =>
    unfold bestOf at h
    split at h
    · exact Option.some.inj h ▸ List.mem_cons_self ..
    · rename_i y hy
      split at h
      · exact Option.some.inj h ▸ List.mem_cons_of_mem _ (ih hy)
      · exact Option.some.inj h ▸ List.mem_cons_self ..

/-- One that is better than every other, none being better than it, is the one chosen. -/
theorem bestOf_eq_some {α : Type} {better : α → α → Bool} {l : List α} {v : α} (hv : v ∈ l)
    (h : ∀ j ∈ l, j ≠ v → better v j = true ∧ better j v = false) : bestOf better l = some v := by
  induction l with
  | nil => exact nomatch hv
  | cons x xs ih =>
    have hxs : ∀ j ∈ xs, j ≠ v → better v j = true ∧ better j v = false := fun j hj => h j (List.mem_cons_of_mem _ hj)
    unfold bestOf
    split
    · rename_i hnone
      rw [bestOf_eq_none.mp hnone, List.mem_singleton] at hv
      rw [hv]
    · rename_i y hy
      by_cases hx : x = v
      · by_cases hyv : y = v
        · rw [hx, hyv, ite_self]
        · rw [hx, (hxs y (bestOf_mem hy) hyv).2]
          rfl
      · have hmem : v ∈ xs := (List.mem_cons.mp hv).resolve_left (Ne.symm hx)
        rw [ih hmem hxs] at hy
        rw [← Option.some.inj hy, (h x (List.mem_cons_self ..) hx).1]
        rfl

theorem candidate_none {s : State} : s.candidate = none ↔ ∀ j, (s.sector j).st ≠ .blank := by
  unfold State.candidate State.sectorsIn
  rw [bestOf_eq_none, List.filter_eq_nil_iff]
  exact ⟨fun h j hj => h j (List.mem_finRange j) (decide_eq_true hj), fun h j _ hj => h j (of_decide_eq_true hj)⟩

/-! ### Records -/

theorem not_barHolds_of_writable {s : State} (h : s.writable) : ¬ barHolds s := by
  obtain ⟨hst, hlow, -⟩ := h
  unfold barHolds
  rw [hst, hlow]
  simp

theorem place_of_writable {s : State} (h : s.writable) (x : SlotId) (op : ArrayOp) :
    s.place x op = ({ s with arr := s.arr.put x op }, none) :=
  place_joins (.inr (not_barHolds_of_writable h))

theorem accepting_of_writable {s : State} (h : s.writable) : s.accepting = true := by
  obtain ⟨hst, -, hstop⟩ := h
  simp [State.accepting, hst, hstop]

/-- A sector's entry changed twice in place. -/
theorem modSector_modSector (s : State) (i : SectorIx) (f g : SectorEntry → SectorEntry) :
    (s.modSector i f).modSector i g = s.modSector i (fun e => g (f e)) := by
  have hget : (s.sectors.set i.val (f (s.sectors.get i)) i.isLt).get i = f (s.sectors.get i) := by
    rw [vector_get_set, if_pos rfl]
  simp only [State.modSector, hget, Vector.set_set]

theorem charge_one (w : LogWriter) (x : Stream) : w.charge x 1 =
    { w with commitRes := oneCharged x .commit w.commitRes, reclaimRes := oneCharged x .reclaim w.reclaimRes } := by
  cases x <;> rfl

/-- The program of a record's line is requested through slot L (R19, R23, R34). -/
theorem requestLine_of_writable {s : State} (h : s.writable) (cur : InProgress) (loc : Loc) : s.requestLine cur loc =
    ({ s.modSector loc.sector SectorEntry.addDead with
      lw := { s.lw with
        current := some cur, point := s.lw.point.map (fun p => { p with line := p.line + 1 })
        commitRes := oneCharged cur.stream .commit s.lw.commitRes
        reclaimRes := oneCharged cur.stream .reclaim s.lw.reclaimRes }
      arr := s.arr.put .l (.program loc.sector (loc.line + cur.done) (cur.record.lineData cur.done)) }, []) := by
  unfold State.requestLine
  dsimp only
  rw [place_joins]
  · simp only [charge_one, State.modSector_lw]
    rfl
  · exact .inr fun hbar => not_barHolds_of_writable h hbar

theorem modSector_same {s : State} {i : SectorIx} {f : SectorEntry → SectorEntry} (h : f (s.sector i) = s.sector i) :
    s.modSector i f = s := by
  have hset : s.sectors.set i.val (f (s.sectors.get i)) i.isLt = s.sectors := by
    rw [show f (s.sectors.get i) = s.sectors.get i from h]
    exact Vector.set_getElem_self i.isLt
  unfold State.modSector
  rw [hset]

/-- What a placed record does to the mark of its sector (R37). -/
def markedFor (x : Stream) (r : Record) (e : SectorEntry) : SectorEntry :=
  { e with mark := e.mark || (decide (x = .commit) && decide (r.key ≠ 0xFF01#16)) }

/-- A record is placed: its sector takes the mark, and its first line is requested (R19, R37). -/
theorem placeRecord_eq (s : State) (p : AppendPoint) (cur : InProgress) : s.placeRecord cur p =
    (s.modSector p.sector (markedFor cur.stream cur.record)).requestLine
      { cur with place := some { sector := p.sector, line := p.line }, done := 0 }
      { sector := p.sector, line := p.line } := by
  unfold State.placeRecord
  cases hm : decide (cur.stream = .commit) && decide (cur.record.key ≠ Config.settingsKey)
  · have hsame : markedFor cur.stream cur.record (s.sector p.sector) = s.sector p.sector := by
      have hm' : (decide (cur.stream = .commit) && decide (cur.record.key ≠ 0xFF01#16)) = false := hm
      simp only [markedFor, hm', Bool.or_false]
    rw [modSector_same hsame]
    rfl
  · have hmark : markedFor cur.stream cur.record = fun e => { e with mark := true } := by
      have hm' : (decide (cur.stream = .commit) && decide (cur.record.key ≠ 0xFF01#16)) = true := hm
      funext e
      simp only [markedFor, hm', Bool.or_true]
    rw [hmark]
    rfl

/-- A record is placed at the append point (R19, R23, R34, R37). -/
theorem placeRecord_of_writable {s : State} (h : s.writable) {p : AppendPoint} (hp : s.lw.point = some p)
    (cur : InProgress) :
    s.placeRecord cur p = (s.recordPlaced s.lw cur.stream cur.record p cur.failures, []) := by
  rw [placeRecord_eq, requestLine_of_writable (s := s.modSector _ _) h, modSector_modSector]
  simp only [State.modSector_lw, hp]
  rfl

/-! ### Openings -/

/-- A sector change is begun with a candidate (R11, R20). -/
theorem beginOpening_of_candidate {s : State} (h : s.writable) {k : SectorIx} (hk : s.candidate = some k)
    (cur : Option InProgress) (early : Bool) :
    s.beginOpening cur early = (s.openingPlaced s.lw cur k early, []) := by
  unfold State.beginOpening
  rw [hk]
  dsimp only
  rw [place_of_writable]
  · rfl
  · exact h

/-- Without a candidate the record that waits is refused NO-SPACE (R20, R24). -/
theorem beginOpening_of_none {s : State} (hk : ∀ j, (s.sector j).st ≠ .blank) (cur : InProgress) (early : Bool) :
    s.beginOpening (some cur) early = (s.dropCurrent, [.refused cur.stream .noSpace, .serve]) := by
  unfold State.beginOpening
  rw [candidate_none.mpr hk]

/-! ### Serving -/

/-- The record of a stream that an idle Log Writer serves (R18). -/
def freshRecord (x : Stream) (r : Record) : InProgress :=
  { stream := x, record := r, place := none, done := 0, failures := 0 }

/-- The Log Writer once it has chosen a stream's record (R18). -/
def LogWriter.chose (w : LogWriter) (x : Stream) : LogWriter :=
  { w with flag := if x = .commit then .reclaim else .commit }

/-- A Log Writer with a record ready on a stream (R18). -/
def LogWriter.readied (w : LogWriter) (x : Stream) (r : Record) : LogWriter :=
  { w with
    commitReady := if x = .commit then some r else w.commitReady
    reclaimReady := if x = .reclaim then some r else w.reclaimReady }

theorem offer_of_accepting {s : State} (h : s.accepting = true) (x : Stream) (r : Record) :
    s.offer x r = ({ s with lw := s.lw.readied x r }, [.serve]) := by
  unfold State.offer
  rw [if_pos h]
  cases x <;> rfl

theorem offer_of_not_accepting {s : State} (h : s.accepting = false) (x : Stream) (r : Record) :
    s.offer x r = (s, [.refused x s.writerStatus]) := by
  unfold State.offer
  rw [if_neg (by rw [h]; exact Bool.false_ne_true)]

/-- The Log Writer chooses nothing: it accepts nothing, it is at work, or nothing is ready (R17, R18). -/
theorem serve_rests {s : State} (h : s.accepting = false ∨ s.lw.current ≠ none ∨ s.lw.opening ≠ none ∨
    (s.lw.commitReady = none ∧ s.lw.reclaimReady = none)) : s.serve = (s, []) := by
  unfold State.serve
  split
  · rename_i hall
    simp only [Bool.and_eq_true, Option.isNone_iff_eq_none] at hall
    obtain ⟨⟨hacc, hcur⟩, hopen⟩ := hall
    rcases h with h | h | h | ⟨hc, hr⟩
    · rw [h] at hacc
      exact nomatch hacc
    · exact absurd hcur h
    · exact absurd hopen h
    · rw [hc, hr]
  · rfl

/-- An idle Log Writer begins the record that has become ready (R18). -/
theorem serve_of_readied {u : State} {w : LogWriter} {x : Stream} {r : Record} (hst : u.store.st = .mounted)
    (hstop : w.stopped = false) (hw : w.idle) : State.serve { u with lw := w.readied x r } =
      State.beginRecord { u with lw := w.chose x } (freshRecord x r) := by
  have hacc : State.accepting { u with lw := w.readied x r } = true := by
    simp [State.accepting, LogWriter.readied, hst, hstop]
  obtain ⟨hcur, hopen, hc, hr⟩ := hw
  obtain ⟨point, current, opening, commitReady, reclaimReady, commitRes, reclaimRes, flag, stopped, seqCtr, actCtr, txnCtr⟩ := w
  simp only at hcur hopen hc hr
  subst hcur hopen hc hr
  unfold State.serve
  rw [hacc]
  cases x <;> rfl

/-- A record that fits is placed (R19). -/
theorem beginRecord_of_fits {s : State} (h : s.writable) {p : AppendPoint} (hp : s.lw.point = some p) {cur : InProgress}
    (hfit : cur.record.lines ≤ 256 - p.line) :
    s.beginRecord cur = (s.recordPlaced s.lw cur.stream cur.record p cur.failures, []) := by
  unfold State.beginRecord
  rw [hp]
  exact (if_pos hfit).trans (placeRecord_of_writable h hp cur)

/-- A record that does not fit has a sector opened for it (R20). -/
theorem beginRecord_of_wide {s : State} {cur : InProgress}
    (hwide : ∀ p, s.lw.point = some p → 256 - p.line < cur.record.lines) :
    s.beginRecord cur = s.beginOpening (some cur) false := by
  unfold State.beginRecord
  cases hp : s.lw.point with
  | none => rfl
  | some p => exact if_neg (by have := hwide p hp; omega)

/-! ### Ends of background commands -/

theorem dropFlight_append {before after : List (Byte × Byte)} {code tag : Byte} (h : ∀ p ∈ before, p.1 ≠ code) :
    dropFlight (before ++ (code, tag) :: after) code = before ++ after := by
  induction before with
  | nil => exact if_pos rfl
  | cons p before ih =>
    rw [List.forall_mem_cons] at h
    exact (if_neg h.1).trans (congrArg (p :: ·) (ih h.2))

theorem find?_append_of_code {before after : List (Byte × Byte)} {code tag : Byte} (h : ∀ p ∈ before, p.1 ≠ code) :
    (before ++ (code, tag) :: after).find? (fun p => decide (p.1 = code)) = some (code, tag) := by
  rw [List.find?_append, List.find?_eq_none.mpr (by simpa using h), Option.none_or]
  exact List.find?_cons_of_pos (decide_eq_true rfl)

/-- A background command leaves the in-flight list and posts its completion (R154). -/
theorem finish_of_flies {s : State} {before after : List (Byte × Byte)} {code tag : Byte}
    (h : s.cu.flies before code tag after) (st : Status) (a b c : Nat) : s.finish code st a b c =
      { s with cu := s.cu.ended (before ++ after) (flightDone code tag st a b c) } := by
  obtain ⟨hflight, hbefore⟩ := h
  unfold State.finish
  rw [hflight, find?_append_of_code hbefore, dropFlight_append hbefore]
  rfl

end Sys2Proof.Machine
end

section
/-! SUPPORT. What is left of a step: the happenings that pend in a state of it. The terms of the statements that go on
from a state (an offer, a refusal, the end of a unit, the engine's look) are read off what pends there. -/

namespace Sys2Proof.Machine

set_option Elab.async false

/-! ### What pends -/

/-- A chain of happenings, and then what `F` makes of the state they leave. -/
def drainThen (F : State → Host.Outcome State Fault Refusal) (n : Nat) (gs : List Signal) (x : State) :
    Host.Outcome State Fault Refusal :=
  (drain n gs x).elim (.fault .unsettled) F

/-- The step of `c` from `s` has come to `x`, where the happenings `gs` pend, with room for `n` more at least, and `F`
closes the step. -/
structure Pends (c : Instr) (s : State) (stored : Nat → Prop) (F : State → Host.Outcome State Fault Refusal) (n : Nat)
    (gs : List Signal) (x : State) : Prop where
  runs : ∃ m, n ≤ m ∧ exec c s = drainThen F m gs x
  bytes : bytesKept s x stored

/-- A step that has still its look before it. -/
def lookAhead (t : State) : Host.Outcome State Fault Refusal := conclude (t, [])

/-- A step of which the grant alone is left. -/
def closing (t : State) : Host.Outcome State Fault Refusal := .next t.grant

section Pending
variable {c : Instr} {s : State} {stored : Nat → Prop} {F : State → Host.Outcome State Fault Refusal}
  {n : Nat} {gs : List Signal} {x : State}

theorem Pends.mono {k : Nat} (h : Pends c s stored F n gs x) (hk : k ≤ n) : Pends c s stored F k gs x := by
  obtain ⟨⟨m, hm, hrun⟩, hb⟩ := h
  exact ⟨⟨m, by omega, hrun⟩, hb⟩

/-- One happening is dealt with. -/
theorem Pends.handle {g : Signal} {y : State} {new : List Signal} (h : Pends c s stored F (n + 1) (g :: gs) x)
    (hx : x.handle g = (y, new)) : Pends c s stored F n (queued new gs) y := by
  obtain ⟨⟨m, hm, hrun⟩, hb⟩ := h
  obtain ⟨k, rfl⟩ : ∃ k, m = k + 1 := ⟨m - 1, by omega⟩
  have hcells : y.flash.cells = x.flash.cells := by
    have := (along_handle x g).cells
    rwa [hx] at this
  refine ⟨⟨k, by omega, ?_⟩, fun ln i hi hn => ?_⟩
  · rw [hrun, drainThen, drain_cons, hx]
    rfl
  · rw [← hb ln i hi hn]
    unfold Flash.byte
    rw [hcells]

theorem Pends.same {g : Signal} (h : Pends c s stored F (n + 1) (g :: gs) x) (hx : x.handle g = (x, [])) :
    Pends c s stored F n gs x :=
  queued_nil gs ▸ h.handle hx

/-- A step's answer pends. -/
theorem pends_of_conclude {new : List Signal} (h : exec c s = conclude (x, new)) (hb : bytesKept s x stored) :
    Pends c s stored lookAhead 400 (queued new []) x := by
  refine ⟨⟨400, Nat.le_refl _, h.trans ?_⟩, hb⟩
  unfold drainThen
  have hsettle : drain 400 (queued new []) x = settle (x, new) := rfl
  rw [hsettle]
  unfold conclude
  cases settle (x, new) with
  | none => rfl
  | some t =>
    rw [Option.elim_some]
    unfold lookAhead conclude
    rw [settle_nil]

/-- Without a happening left, the look is what pends (R84). -/
theorem Pends.look (h : Pends c s stored lookAhead n [] x) : Pends c s stored closing 400 [.look] x := by
  obtain ⟨⟨m, -, hrun⟩, hb⟩ := h
  refine ⟨⟨400, Nat.le_refl _, hrun.trans ?_⟩, hb⟩
  rw [drainThen, drain_nil, Option.elim_some]
  unfold lookAhead conclude drainThen
  rw [settle_nil, Option.bind_some]
  have hbound : drain Config.cascadeBound [.look] x = drain 400 [.look] x := rfl
  rw [hbound]
  cases drain 400 [.look] x <;> rfl

/-- With nothing left but the grant, the step ends there. -/
theorem Pends.ends (h : Pends c s stored closing n [] x) : endsIn c s x stored := by
  obtain ⟨⟨m, -, hrun⟩, hb⟩ := h
  refine endsIn_of (hrun.trans ?_) hb
  rw [drainThen, drain_nil]
  rfl

theorem queued_inner {new : List Signal} (h : ∀ g ∈ new, g.isApart = false) (gs : List Signal) :
    queued new gs = new ++ gs := by
  unfold queued
  rw [List.filter_eq_self.mpr fun g hg => by rw [h g hg]; rfl,
    List.filter_eq_nil_iff.mpr fun g hg => by rw [h g hg]; exact Bool.false_ne_true, List.append_nil]

theorem queued_apart {new : List Signal} (h : ∀ g ∈ new, g.isApart = true) (gs : List Signal) :
    queued new gs = gs ++ new := by
  unfold queued
  rw [List.filter_eq_self.mpr fun g hg => h g hg,
    List.filter_eq_nil_iff.mpr fun g hg => by rw [h g hg]; exact Bool.false_ne_true, List.nil_append]

/-- The Log Writer has nothing to choose. -/
theorem Pends.serve_rests (h : Pends c s stored F (n + 1) (.serve :: gs) x)
    (hx : x.accepting = false ∨ x.lw.current ≠ none ∨ x.lw.opening ≠ none ∨
      (x.lw.commitReady = none ∧ x.lw.reclaimReady = none)) : Pends c s stored F n gs x :=
  h.same (Machine.serve_rests hx)

/-! ### Offers -/

/-- Free lines are counted by the append point and the BLANK sectors (R21). -/
theorem freeLines_congr {y u : State} (hp : y.lw.point = u.lw.point)
    (hs : ∀ j, (y.sector j).st = .blank ↔ (u.sector j).st = .blank) : y.freeLines = u.freeLines := by
  unfold State.freeLines State.blankCount State.sectorsIn
  rw [hp]
  simp only [hs]

/-- A record placed leaves no more lines free (R19, R21). -/
theorem freeLines_recordPlaced {u : State} {w : LogWriter} {p : AppendPoint} (hp : w.point = some p) (x : Stream)
    (r : Record) (k : Nat) : (u.recordPlaced w x r p k).freeLines ≤ State.freeLines { u with lw := w } := by
  have hsame : (u.recordPlaced w x r p k).freeLines =
      State.freeLines { u with lw := { w with point := some { p with line := p.line + 1 } } } := by
    refine freeLines_congr rfl fun j => ?_
    have hset : (u.recordPlaced w x r p k).sector j = if j = p.sector then _ else u.sector j := vector_get_set _ _ _ _
    rw [hset]
    split
    · rename_i hj
      rw [hj]
      exact Iff.rfl
    · exact Iff.rfl
  rw [hsame]
  unfold State.freeLines
  simp only [hp]
  exact Nat.add_le_add_right (by omega) _

/-- What an offer to a Log Writer `w` leaves: the Log Writer, the marks and lines of a sector and slot L may change; the
record is in progress, waits for an opening or stays ready behind another; no more lines are free than before, and a
record of the reclaim stream takes nothing from a commit's reservation. -/
structure OfferLeaves (str : Stream) (u : State) (w : LogWriter) (y : State) : Prop where
  rest : y = { u with lw := y.lw, sectors := y.sectors, arr := y.arr }
  busy : y.lw.current ≠ none ∨ y.lw.opening ≠ none
  free : y.freeLines ≤ State.freeLines { u with lw := w }
  res : str = .reclaim → y.lw.commitRes = w.commitRes

/-- A record offered to a Log Writer that accepts records (R18, R19, R20). -/
theorem Pends.to_offers {u : State} {w : LogWriter} {str : Stream} {r : Record} {ends : State → Prop}
    (h : Pends c s stored F (n + 1) (.serve :: gs) { u with lw := w.readied str r }) (hst : u.store.st = .mounted)
    (hlow : u.pins.pfailLow = false) (hstop : w.stopped = false)
    (hE : ∀ y, OfferLeaves str u w y → Pends c s stored F n gs y → ends y) : offersTo str u w r ends := by
  have served {a : State × List Signal} (hw : w.idle)
      (ha : State.beginRecord { u with lw := w.chose str } (freshRecord str r) = a) :
      Pends c s stored F n (queued a.2 gs) a.1 :=
    h.handle ((serve_of_readied hst hstop hw).trans ha)
  refine ⟨fun p hw hp hfit => hE _ ⟨rfl, .inl nofun, ?_, fun hx => ?_⟩ ?_,
    fun k hw hwide hk => hE _ ⟨rfl, .inl nofun, Nat.le_refl _, fun _ => rfl⟩ ?_,
    fun hbusy => hE _ ⟨rfl, hbusy, Nat.le_refl _, fun _ => rfl⟩ ?_⟩
  · exact freeLines_recordPlaced (w := w.chose str) hp _ _ _
  · subst hx
    rfl
  · exact queued_nil gs ▸ served hw (beginRecord_of_fits (s := { u with lw := w.chose str }) ⟨hst, hlow, hstop⟩ hp hfit)
  · have hopen := (beginRecord_of_wide (s := { u with lw := w.chose str }) (cur := freshRecord str r) hwide).trans
      (beginOpening_of_candidate (s := { u with lw := w.chose str }) ⟨hst, hlow, hstop⟩ hk _ _)
    exact queued_nil gs ▸ served hw hopen
  · exact h.serve_rests (.inr (or_assoc.mp (.inl hbusy)))

/-- A record of the reclaim stream offered; refused NO-SPACE where no sector is BLANK (R20). -/
theorem Pends.to_reclaimOffers {u : State} {w : LogWriter} {r : Record} {ends refused : State → Prop}
    (h : Pends c s stored F (n + 1) (.serve :: gs) { u with lw := w.readied .reclaim r }) (hst : u.store.st = .mounted)
    (hlow : u.pins.pfailLow = false) (hstop : w.stopped = false)
    (hE : ∀ y, OfferLeaves .reclaim u w y → Pends c s stored F n gs y → ends y)
    (hR : ∀ y, y = { u with lw := { w with flag := .commit } } → w.idle →
      Pends c s stored F n (.refused .reclaim .noSpace :: .serve :: gs) y → refused y) :
    reclaimOffersTo u w r ends refused := by
  refine ⟨h.to_offers hst hlow hstop hE, fun hw hwide hblank => hR _ rfl hw ?_⟩
  have hbegin : State.beginRecord { u with lw := w.chose .reclaim } (freshRecord .reclaim r) =
      (State.dropCurrent { u with lw := w.chose .reclaim }, [.refused .reclaim .noSpace, .serve]) :=
    (beginRecord_of_wide (s := { u with lw := w.chose .reclaim }) (cur := freshRecord .reclaim r) hwide).trans
      (beginOpening_of_none (s := { u with lw := w.chose .reclaim }) hblank _ _)
  have hdrop : State.dropCurrent { u with lw := w.chose .reclaim } = { u with lw := { w with flag := .commit } } := by
    obtain ⟨hcur, -⟩ := hw
    unfold State.dropCurrent LogWriter.chose
    rw [← hcur]
    rfl
  have hserve := h.handle ((serve_of_readied hst hstop hw).trans hbegin)
  rw [hdrop, queued_inner (by simp [Signal.isApart])] at hserve
  exact hserve

/-! ### Writes that end without success -/

/-- A commit that does not complete (R77). -/
theorem commitFail_of_flies {u : State} {f : CommitFlight} {before after : List (Byte × Byte)} {tag : Byte}
    (hf : u.tm.commit = some f) (hfly : u.cu.flies before 0x23#8 tag after) (st : Status) :
    u.commitFail st = commitOver u st f tag (before ++ after) := by
  unfold State.commitFail
  rw [hf]
  dsimp only
  rw [finish_of_flies (before := before) (after := after) (tag := tag)]
  · unfold commitOver
    simp only [Bool.or_assoc, ← Bool.decide_and, ← Bool.decide_or]
    rfl
  · exact hfly

/-- A settings write that does not complete (R82, R168). -/
theorem settingsFail_of_flies {u : State} {f : SettingsFlight} {before after : List (Byte × Byte)} {tag : Byte}
    (hf : u.tm.settings = some f) (hfly : u.cu.flies before 0x31#8 tag after) (st : Status) :
    u.settingsFail st = settingsOver u st f tag (before ++ after) := by
  unfold State.settingsFail
  rw [hf]
  dsimp only
  rw [finish_of_flies (before := before) (after := after) (tag := tag)]
  · rfl
  · exact hfly

/-- Of a commit and a settings write one at most is in flight, so that the one that waits is the commit when there is
one. -/
theorem failWaiter_of_commit {u : State} {f : CommitFlight} (hf : u.tm.commit = some f) (hone : oneWrite u)
    (hw : u.spaceWaiter = true) (st : Status) : u.failWaiter st = u.commitFail st := by
  have hsettings : u.tm.settings = none := hone.resolve_left (by rw [hf]; exact nofun)
  have hphase : f.phase = .waitingSpace := by
    unfold State.spaceWaiter at hw
    rw [hf, hsettings] at hw
    simpa using hw
  have hkept : (u.commitFail st).tm.settings = none := by
    unfold State.commitFail
    rw [hf]
    dsimp only [State.finish]
    split <;> exact hsettings
  unfold State.failWaiter
  rw [hf]
  dsimp only
  rw [if_pos hphase, hkept]

theorem failWaiter_of_settings {u : State} {f : SettingsFlight} (hc : u.tm.commit = none) (hf : u.tm.settings = some f)
    (hw : u.spaceWaiter = true) (st : Status) : u.failWaiter st = u.settingsFail st := by
  have hphase : f.phase = .waitingSpace := by
    unfold State.spaceWaiter at hw
    rw [hc, hf] at hw
    simpa using hw
  unfold State.failWaiter
  rw [hc]
  dsimp only
  rw [hf]
  exact if_pos hphase

theorem failWaiter_of_none {u : State} (hw : u.spaceWaiter = false) (st : Status) : u.failWaiter st = u := by
  unfold State.spaceWaiter at hw
  rw [Bool.or_eq_false_iff] at hw
  obtain ⟨hc, hs⟩ := hw
  unfold State.failWaiter
  cases hcommit : u.tm.commit with
  | none =>
    dsimp only
    cases hset : u.tm.settings with
    | none => rfl
    | some g =>
      rw [hset] at hs
      exact if_neg (of_decide_eq_false hs)
  | some f =>
    rw [hcommit] at hc
    dsimp only
    rw [if_neg (of_decide_eq_false hc)]
    cases hset : u.tm.settings with
    | none => rfl
    | some g =>
      rw [hset] at hs
      exact if_neg (of_decide_eq_false hs)

/-- Neither a commit nor a settings write is left in flight. -/
abbrev writeGone (y : State) : Prop :=
  y.tm.commit = none ∧ y.tm.settings = none

theorem spaceWaiter_of_gone {y : State} (h : writeGone y) : y.spaceWaiter = false := by
  unfold State.spaceWaiter
  rw [h.1, h.2]
  rfl

/-- No reservation of a commit is held and no sector is marked, so that the end of whoever waits changes neither. -/
abbrev unmarked (u : State) : Prop :=
  u.lw.commitRes = none ∧ ∀ j, (u.sector j).mark = false

theorem unmark_eq {v : Vector SectorEntry 32} (h : ∀ j, (v.get j).mark = false) :
    (v.map fun e => { e with mark := false }) = v := by
  refine Vector.ext fun i hi => ?_
  have hmark : v[i].mark = false := h ⟨i, hi⟩
  rw [Vector.getElem_map, ← hmark]

theorem released_eq {w : LogWriter} (h : w.commitRes = none) : { w with commitRes := none } = w := by
  rw [← h]

/-- Whoever waits ends with a status (R72, R77, R82). -/
theorem writeFailsTo_of_failWaiter {u : State} {st : Status} {ends : State → Prop} (hone : oneWrite u)
    (hw : u.spaceWaiter = true)
    (hE : writeGone (u.failWaiter st) → (u.failWaiter st).store = u.store → (u.failWaiter st).eng = u.eng →
      (unmarked u → (u.failWaiter st).sectors = u.sectors ∧ (u.failWaiter st).lw = u.lw) →
        ends (u.failWaiter st)) : writeFailsTo u st ends := by
  refine ⟨fun f before tag after hf hfly => ?_, fun f before tag after hc hf hfly => ?_⟩
  · have hsettings : u.tm.settings = none := hone.resolve_left (by rw [hf]; exact nofun)
    rw [failWaiter_of_commit hf hone hw, commitFail_of_flies hf hfly] at hE
    exact hE ⟨rfl, hsettings⟩ rfl rfl fun hun => ⟨unmark_eq hun.2, released_eq hun.1⟩
  · rw [failWaiter_of_settings hc hf hw, settingsFail_of_flies hf hfly] at hE
    exact hE ⟨hc, rfl⟩ rfl rfl fun hun => ⟨rfl, released_eq hun.1⟩

/-! ### Leaving MOUNTED -/

theorem dropWaiting_of_none {u : State} {x : SlotId} (h : u.arr.waitingWrite x = false) : u.dropWaiting x = u := by
  unfold State.dropWaiting
  rw [h]
  rfl

theorem unready_eq {w : LogWriter} (hc : w.commitReady = none) (hr : w.reclaimReady = none) :
    { w with commitReady := none, reclaimReady := none } = w := by
  cases w
  simp only at hc hr
  subst hc hr
  rfl

theorem leaveForReadOnly_of_refusesNothing {u : State} (hst : u.store.st = .mounted) (h : refusesNothing u)
    (cause : Cause) : u.leaveForReadOnly cause = ((readOnlyFor u cause).failWaiter .readOnly, []) := by
  obtain ⟨hl, hc, hm, hcr, hrr⟩ := h
  unfold State.leaveForReadOnly
  rw [if_pos hst]
  have hwait : State.refuseWaiting (readOnlyFor u cause) .readOnly = (readOnlyFor u cause, []) := by
    have hl' : (readOnlyFor u cause).arr.waitingWrite .l = false := hl
    have hc' : (readOnlyFor u cause).arr.waitingWrite .c = false := hc
    have hm' : (readOnlyFor u cause).arr.waitingWrite .m = false := hm
    unfold State.refuseWaiting State.barred
    rw [dropWaiting_of_none hl', dropWaiting_of_none hc', dropWaiting_of_none hm', hl', hc']
    rfl
  have hready : State.refuseReady (readOnlyFor u cause) .readOnly = (readOnlyFor u cause, []) := by
    have hcr' : (readOnlyFor u cause).lw.commitReady = none := hcr
    have hrr' : (readOnlyFor u cause).lw.reclaimReady = none := hrr
    unfold State.refuseReady
    rw [unready_eq hcr' hrr', hcr', hrr']
    rfl
  change (let a := State.refuseWaiting (readOnlyFor u cause) .readOnly
    let b := a.1.refuseReady .readOnly
    (b.1.failWaiter .readOnly, a.2 ++ b.2)) = _
  rw [hwait]
  dsimp only
  rw [hready]
  rfl

/-- The store leaves MOUNTED for READ-ONLY (R80, R119). -/
theorem Pends.to_leaves {u : State} {cause : Cause} {ends : State → Prop}
    (h : Pends c s stored F (n + 1) (.leaveMounted cause :: gs) u)
    (hE : ∀ y, y.store.st = .readOnly → y.spaceWaiter = false → Pends c s stored F n gs y → ends y) :
    leavesTo u cause ends := by
  intro hst hnothing
  have hleft : Pends c s stored F n gs ((readOnlyFor u cause).failWaiter .readOnly) :=
    queued_nil gs ▸ h.handle (leaveForReadOnly_of_refusesNothing hst hnothing cause)
  refine ⟨fun hw => ?_, fun hw hone => ?_⟩
  · rw [failWaiter_of_none (u := readOnlyFor u cause) hw] at hleft
    exact hE _ rfl hw hleft
  · refine writeFailsTo_of_failWaiter (u := readOnlyFor u cause) hone hw fun hgone hstore _ _ => ?_
    exact hE _ (congrArg StoreCtl.st hstore) (spaceWaiter_of_gone hgone) hleft

/-- A reservation that a refused block of numbers leaves behind goes with the write that took it. -/
theorem leavesTo_of_reserved {u : State} {cause : Cause} {ends : State → Prop} (r : Option Nat)
    (hw : u.spaceWaiter = true)
    (h : leavesTo { u with lw := { u.lw with commitRes := r } } cause ends) : leavesTo u cause ends := by
  intro hst hnothing
  refine ⟨fun hno => ?_, fun _ hone => ?_⟩
  · rw [hw] at hno
    exact nomatch hno
  · exact (h hst hnothing).2 hw hone

/-! ### Ends of units -/

/-- STALLED at the end of a unit (R99). -/
theorem stallAtEnd_eq (u : State) (v : SectorIx) (noBlank : Bool) : u.stallAtEnd v noBlank =
    { u with
      win := if decide ((u.sector v).st = .blank) || !noBlank || u.eng.stalled then u.win
        else u.win.raised .reclaimStalled
      eng := { u.eng with
        stalled := !decide ((u.sector v).st = .blank) && (u.eng.stalled || noBlank) } } := by
  unfold State.stallAtEnd
  by_cases hblank : (u.sector v).st = .blank
  · rw [if_pos hblank, decide_eq_true hblank]
    rfl
  · rw [if_neg hblank, decide_eq_false hblank]
    cases noBlank
    · rw [Bool.or_false]
      rfl
    · cases hstalled : u.eng.stalled <;>
        simp only [State.setStalled, State.raiseIf, hstalled] <;> rfl

/-- The engine's own unit ends (R98). -/
theorem endUnit_of_automatic {u : State} {v : SectorIx} (hv : u.eng.sector = some v) (ho : u.eng.owner = .automatic)
    (st : Status) (noBlank : Bool) : u.endUnit st noBlank = (unitOver u v st noBlank).afterUnit := by
  unfold State.endUnit
  rw [hv]
  dsimp only
  rw [ho, stallAtEnd_eq]
  rfl

/-- The unit of a RECLAIM command ends (R98). -/
theorem endUnit_of_command {u : State} {v : SectorIx} {o : Byte} {before after : List (Byte × Byte)} {tag : Byte}
    (hv : u.eng.sector = some v) (ho : u.eng.owner = .command o) (hfly : u.cu.flies before 0x41#8 tag after)
    (st : Status) (noBlank : Bool) : u.endUnit st noBlank =
      State.afterUnit { unitOver u v st noBlank with
        cu := u.cu.ended (before ++ after) (flightDone 0x41#8 tag st (freedBy u v) v.val u.eng.copyCount) } := by
  unfold State.endUnit
  rw [hv]
  dsimp only
  rw [ho, stallAtEnd_eq]
  dsimp only
  rw [finish_of_flies (before := before) (after := after) (tag := tag)]
  · rfl
  · exact hfly

/-- What the end of a unit leaves as it was. -/
abbrev unitEndLeaves (u y : State) : Prop :=
  y.eng.st = .idle ∧ y = { u with lw := { u.lw with reclaimRes := none }, win := y.win, eng := y.eng, cu := y.cu }

/-- The unit ends, and what R98 leaves to happen pends behind what pended before (R98). -/
theorem Pends.to_unitEnds {u : State} {v : SectorIx} {st : Status} {noBlank : Bool} {ends : State → Prop}
    (h : Pends c s stored F (n + 1) (.unitEnd st noBlank :: gs) u)
    (hE : ∀ y, unitEndLeaves u y → Pends c s stored F n (queued y.afterUnit.2 gs) y.afterUnit.1 → ends y) :
    unitEndsTo u v st noBlank ends := by
  refine fun hv => ⟨fun ho => hE _ ⟨rfl, rfl⟩ ?_, fun before tag after o ho hfly => hE _ ⟨rfl, rfl⟩ ?_⟩
  · exact h.handle (endUnit_of_automatic hv ho st noBlank)
  · exact h.handle (endUnit_of_command hv ho hfly st noBlank)

theorem afterUnit_of_not_mounted {y : State} (h : y.store.st ≠ .mounted) : y.afterUnit = (y, []) := by
  unfold State.afterUnit
  exact if_neg h

/-- A refused sequence number ends the unit that met it (R10, R98, R100). -/
theorem Pends.to_halts {u : State} {v : SectorIx} {ends : State → Prop}
    (h : Pends c s stored F (n + 2) (.leaveMounted .sequence :: .unitEnd .readOnly false :: gs) u)
    (hE : ∀ y, y.store.st = .readOnly → y.spaceWaiter = false → Pends c s stored F n gs y → ends y) :
    haltsTo u v ends := by
  refine Pends.to_leaves (n := n + 1) h fun y hst hw hy => hy.to_unitEnds fun z ⟨_, hz⟩ hpend => ?_
  have hzst : z.store.st = .readOnly := by rw [hz]; exact hst
  rw [afterUnit_of_not_mounted (by rw [hzst]; exact nofun), queued_nil] at hpend
  exact hE z hzst (by rw [hz]; exact hw) hpend

/-- The end of a unit releases its reservation, whatever it was. -/
theorem haltsTo_of_reserved {u : State} {v : SectorIx} {ends : State → Prop} (r : Option Nat)
    (h : haltsTo { u with lw := { u.lw with reclaimRes := r } } v ends) : haltsTo u v ends := h

end Pending

end Sys2Proof.Machine
end

section
/-! SUPPORT. What pends once a unit ends, a record is refused, the engine retires, starts, stalls or looks, and a
reservation is asked for. -/

namespace Sys2Proof.Machine

set_option Elab.async false

section Pending
variable {c : Instr} {s : State} {stored : Nat → Prop} {F : State → Host.Outcome State Fault Refusal}
  {n : Nat} {gs : List Signal}

/-! ### Retirement -/

theorem retiredCount_eq (u : State) : u.retiredCount = countIn u.sectors .retired := rfl

/-- The happenings of a retirement's end (R42, R95). -/
def retirementSignals (u : State) (st : Status) : List Signal :=
  (if 32 - u.retiredCount < Config.minUsableSectors then [.leaveMounted .retirement] else []) ++ [.unitEnd st false]

theorem leaveForReadOnly_of_not_mounted {u : State} (h : u.store.st ≠ .mounted) (cause : Cause) :
    u.leaveForReadOnly cause = (u, []) := by
  unfold State.leaveForReadOnly
  exact if_neg h

/-- What a unit that has ended leaves: the Log Writer but for the reservation as it was, or the store in READ-ONLY with
nobody waiting for space. -/
abbrev unitPosted (u y : State) : Prop :=
  y.eng.st = .idle ∧ ((y.lw = { u.lw with reclaimRes := none } ∧ y.store = u.store ∧ y.tm = u.tm) ∨
    (y.store.st = .readOnly ∧ y.spaceWaiter = false))

theorem unitPosted_of_leaves {u y : State} (h : unitEndLeaves u y) : unitPosted u y := by
  obtain ⟨hidle, hy⟩ := h
  refine ⟨hidle, .inl ⟨?_, ?_, ?_⟩⟩ <;> rw [hy]

/-- A retirement ends the unit (R42, R95). -/
theorem Pends.to_retirementEnds {u : State} {v : SectorIx} {st : Status} {ends : State → Prop}
    (h : Pends c s stored F (n + 2) (retirementSignals u st ++ gs) u)
    (hE : ∀ y, unitPosted u y → Pends c s stored F n (queued y.afterUnit.2 gs) y.afterUnit.1 → ends y) :
    retirementEndsTo u v st ends := by
  unfold retirementSignals at h
  refine ⟨fun hfew => ?_, fun hst hmany => ?_⟩
  · have hend : Pends c s stored F (n + 1) (.unitEnd st false :: gs) u := by
      split at h
      · rename_i hlow
        have hst : u.store.st ≠ .mounted := hfew.resolve_right fun hcount => by
          rw [retiredCount_eq] at hlow
          have : Config.minUsableSectors = 3 := rfl
          omega
        exact h.same (leaveForReadOnly_of_not_mounted hst _)
      · exact h.mono (by omega)
    exact hend.to_unitEnds fun y hy => hE y (unitPosted_of_leaves hy)
  · have hlow : 32 - u.retiredCount < Config.minUsableSectors := by
      have : Config.minUsableSectors = 3 := rfl
      rw [retiredCount_eq]
      omega
    rw [if_pos hlow] at h
    refine Pends.to_leaves (n := n + 1) h fun y hyst hw hy => hy.to_unitEnds fun z hz hpend => ?_
    obtain ⟨hidle, hzeq⟩ := hz
    refine hE z ⟨hidle, .inr ⟨by rw [hzeq]; exact hyst, by rw [hzeq]; exact hw⟩⟩ hpend

/-! ### Refused records -/

theorem retireDone_of_refused (u : State) (v : SectorIx) (st : Status) : u.retireDone v none (some st) =
    (retiredIn u v none,
      retirementSignals (retiredIn u v none) (if st = .powerFail ∨ st = .readOnly then st else retireStatus u)) := by
  unfold State.retireDone retirementSignals
  refine congrArg (fun x => (retiredIn u v none, _ ++ [Signal.unitEnd x false])) ?_
  unfold retireStatus
  split
  · rename_i hst
    cases hst
    exact (if_pos (.inl rfl)).symm
  · rename_i hst
    cases hst
    exact (if_pos (.inr rfl)).symm
  · rename_i hcause hpf hro
    rw [if_neg (fun hst => hst.elim (fun e => hpf (congrArg some e)) fun e => hro (congrArg some e)), hcause]
    rfl
  · rename_i hcause hpf hro
    rw [if_neg (fun hst => hst.elim (fun e => hpf (congrArg some e)) fun e => hro (congrArg some e)), hcause]
    rfl

/-- A record is refused to its requester (R77, R82, R87, R90, R92, R95). -/
theorem Pends.to_refuses {u : State} {str : Stream} {st : Status} {ends posted : State → Prop}
    (h : Pends c s stored F (n + 3) (.refused str st :: gs) u)
    (hE : str = .commit → ∀ y, y.lw = { u.lw with commitRes := none } → y.store = u.store →
      Pends c s stored F n gs y → ends y)
    (hP : ∀ y, unitPosted u y → Pends c s stored F n (queued y.afterUnit.2 gs) y.afterUnit.1 → posted y) :
    refusesTo str u st ends posted := by
  refine ⟨fun hx => ?_, fun v hx hv => ?_⟩
  · subst hx
    refine ⟨fun f before tag after hf hfly => ?_, fun f before tag after hc hf hfly => ?_⟩
    · have hfail : u.commitRefused st = (commitOver u st f tag (before ++ after), []) := by
        unfold State.commitRefused
        rw [← commitFail_of_flies hf hfly, hf]
      exact hE rfl _ rfl rfl (queued_nil gs ▸ (h.handle hfail).mono (by omega))
    · have hfail : u.commitRefused st = (settingsOver u st f tag (before ++ after), []) := by
        unfold State.commitRefused
        rw [← settingsFail_of_flies hf hfly, hc]
      exact hE rfl _ rfl rfl (queued_nil gs ▸ (h.handle hfail).mono (by omega))
  · subst hx
    have refused {new : List Signal} {y : State} (hr : u.reclaimRefused st = (y, new)) :
        Pends c s stored F (n + 2) (queued new gs) y := h.handle hr
    have ended {b : Bool} (hr : u.reclaimRefused st = (u, [.unitEnd st b])) : unitEndsTo u v st b posted := by
      have hy := refused hr
      rw [queued_inner (by simp [Signal.isApart])] at hy
      exact (hy.mono (Nat.le_succ _)).to_unitEnds fun y hy => hP y (unitPosted_of_leaves hy)
    refine ⟨fun hst => ended ?_, fun hst => ended ?_, fun hst => ?_⟩
    · unfold State.reclaimRefused
      rw [hv, hst]
    · unfold State.reclaimRefused
      rw [hv]
      rcases hst with hst | hst <;> rw [hst]
    · have hr : u.reclaimRefused st = u.retireDone v none (some st) := by
        unfold State.reclaimRefused
        rw [hv, hst]
      have hy := refused (hr.trans (retireDone_of_refused u v st))
      rw [queued_inner] at hy
      · exact hy.to_retirementEnds hP
      · unfold retirementSignals
        split <;> simp [Signal.isApart]

end Pending

end Sys2Proof.Machine
end

section
/-! SUPPORT. The unit that the engine takes, and what pends as it starts one, finds none, or looks (R84–R87, R95–R97,
R99). -/

namespace Sys2Proof.Machine

set_option Elab.async false

/-! ### The choice of a unit -/

theorem sectorsIn_nil {u : State} {st : SectorState} : u.sectorsIn st = [] ↔ ∀ j, (u.sector j).st ≠ st := by
  unfold State.sectorsIn
  rw [List.filter_eq_nil_iff]
  exact ⟨fun h j hj => h j (List.mem_finRange j) (decide_eq_true hj), fun h j _ hj => h j (of_decide_eq_true hj)⟩

theorem mem_sectorsIn {u : State} {st : SectorState} {v : SectorIx} : v ∈ u.sectorsIn st ↔ (u.sector v).st = st := by
  unfold State.sectorsIn
  rw [List.mem_filter, decide_eq_true_iff]
  exact and_iff_right (List.mem_finRange v)

theorem sectorsIn_sorted (u : State) (st : SectorState) : (u.sectorsIn st).Pairwise (· < ·) :=
  (List.pairwise_lt_finRange 32).filter _

/-- The lowest of the sectors in a state is the first listed (R85). -/
theorem sectorsIn_of_lowest {u : State} {st : SectorState} {v : SectorIx} (h : lowestIn u st v) :
    ∃ rest, u.sectorsIn st = v :: rest := by
  have hsorted := sectorsIn_sorted u st
  have hmem := mem_sectorsIn.mpr h.1
  cases hl : u.sectorsIn st with
  | nil => rw [hl] at hmem; exact nomatch hmem
  | cons x rest =>
    rw [hl] at hmem hsorted
    have hx : (u.sector x).st = st := mem_sectorsIn.mp (hl ▸ List.mem_cons_self ..)
    rcases List.mem_cons.mp hmem with rfl | hv
    · exact ⟨rest, rfl⟩
    · exact absurd hx (h.2 x ((List.pairwise_cons.mp hsorted).1 v hv))

theorem reclaimRoom_iff {u : State} {k : Nat} : u.reclaimRoom k = true ↔
    u.accepting = true ∧ u.lw.reclaimRes = none ∧ u.heldLines + k ≤ u.freeLines := by
  unfold State.reclaimRoom
  rw [Bool.and_eq_true, Bool.and_eq_true, decide_eq_true_iff, Option.isNone_iff_eq_none, and_assoc]

theorem passAmount_eq (u : State) (v : SectorIx) : u.passAmount v = (u.sector v).live + 18 := rfl

theorem reclaimable_iff {u : State} {v : SectorIx} : u.reclaimable v = true ↔
    (u.sector v).st = .sealed ∧ 1 ≤ (u.sector v).dead ∧ (u.sector v).mark = false := by
  unfold State.reclaimable
  rw [Bool.and_eq_true, Bool.and_eq_true, decide_eq_true_iff, decide_eq_true_iff, Bool.not_eq_true', and_assoc]

theorem older_iff {u : State} {v w : SectorIx} : u.older v w = true ↔ earlier u v w := by
  unfold State.older
  rw [Bool.or_eq_true, Bool.and_eq_true, decide_eq_true_iff, decide_eq_true_iff, decide_eq_true_iff]

/-- Of two sectors one is before the other in activation order, and not the other way round. -/
theorem not_earlier {u : State} {v w : SectorIx} (h : earlier u v w) : ¬ earlier u w v := by
  rintro (hw | ⟨hw, hlt⟩) <;> rcases h with hv | ⟨hv, hlt'⟩
  · omega
  · omega
  · omega
  · exact lt_asymm hlt hlt'

theorem unitChoice_pendingErase {u : State} {v : SectorIx} (h : lowestIn u .erasePending v) :
    u.unitChoice = some (.pendingErase, v) := by
  obtain ⟨rest, hl⟩ := sectorsIn_of_lowest h
  unfold State.unitChoice
  rw [hl]

theorem unitChoice_resumedPass {u : State} {v : SectorIx} (hp : ∀ j, (u.sector j).st ≠ .erasePending)
    (h : lowestIn u .reclaiming v) :
    u.unitChoice = if u.reclaimRoom ((u.sector v).live + 18) then some (.resumedPass, v) else none := by
  obtain ⟨rest, hl⟩ := sectorsIn_of_lowest h
  unfold State.unitChoice
  rw [sectorsIn_nil.mpr hp, hl]
  rfl

theorem unitChoice_pass {u : State} (hp : ∀ j, (u.sector j).st ≠ .erasePending)
    (hr : ∀ j, (u.sector j).st ≠ .reclaiming) : u.unitChoice = u.victim.map (fun v => (UnitKind.pass, v)) := by
  unfold State.unitChoice
  rw [sectorsIn_nil.mpr hp, sectorsIn_nil.mpr hr]

/-- The victim of R86. -/
theorem victim_of_victimIn {u : State} {v : SectorIx} (hacc : u.accepting = true) (hres : u.lw.reclaimRes = none)
    (h : victimIn u v) : u.victim = some v := by
  have passes (j : SectorIx) : (u.reclaimable j && u.reclaimRoom (u.passAmount j)) = true ↔ passable u j := by
    rw [Bool.and_eq_true, reclaimable_iff, reclaimRoom_iff, passAmount_eq]
    constructor
    · rintro ⟨⟨hst, hdead, hmark⟩, -, -, hroom⟩
      exact ⟨hst, hdead, hmark, hroom⟩
    · rintro ⟨hst, hdead, hmark, hroom⟩
      exact ⟨⟨hst, hdead, hmark⟩, hacc, hres, hroom⟩
  obtain ⟨hpass, hbest⟩ := h
  refine bestOf_eq_some (List.mem_filter.mpr ⟨List.mem_finRange v, (passes v).mpr hpass⟩) fun j hj hne => ?_
  rw [Bool.or_eq_true, Bool.and_eq_true, decide_eq_true_iff, decide_eq_true_iff, older_iff, Bool.or_eq_false_iff,
    decide_eq_false_iff_not, Bool.and_eq_false_iff, decide_eq_false_iff_not, ← Bool.not_eq_true, older_iff]
  rcases hbest j hne ((passes j).mp (List.mem_filter.mp hj).2) with hlt | ⟨heq, hold⟩
  · exact ⟨.inl hlt, by omega, .inl (by omega)⟩
  · exact ⟨.inr ⟨heq, hold⟩, by omega, .inr (not_earlier hold)⟩

/-- R85 yields no unit. -/
theorem unitChoice_none {u : State} (h : unitless u) : u.unitChoice = none := by
  obtain ⟨hp, ⟨v, hv, hroom⟩ | ⟨hr, hpass⟩⟩ := h
  · rw [unitChoice_resumedPass hp hv, if_neg]
    rw [reclaimRoom_iff]
    omega
  · rw [unitChoice_pass hp hr, Option.map_eq_none_iff]
    refine bestOf_eq_none.mpr (List.filter_eq_nil_iff.mpr fun j _ hj => hpass j ?_)
    rw [Bool.and_eq_true, reclaimable_iff, reclaimRoom_iff, passAmount_eq] at hj
    obtain ⟨⟨hst, hdead, hmark⟩, -, -, hroom⟩ := hj
    exact ⟨hst, hdead, hmark, hroom⟩

/-! ### Reasons -/

theorem automaticReason_iff {u : State} : u.automaticReason = true ↔
    u.settings.autoReclaim = 1 ∧ u.blankCount < u.settings.threshold := by
  unfold State.automaticReason
  rw [Bool.and_eq_true, decide_eq_true_iff, decide_eq_true_iff]

theorem waitingReason_iff {u : State} : u.waitingReason = true ↔ u.settings.autoReclaim = 1 ∧ u.spaceWaiter = true := by
  unfold State.waitingReason
  rw [Bool.and_eq_true, decide_eq_true_iff]

theorem pendingReason_iff {u : State} : u.pendingReason = true ↔ u.settings.autoReclaim = 1 ∧
    ∃ v, (u.sector v).st = .erasePending ∨ (u.sector v).st = .reclaiming := by
  unfold State.pendingReason
  rw [Bool.and_eq_true, Bool.or_eq_true, decide_eq_true_iff, decide_eq_true_iff, decide_eq_true_iff, ne_eq,
    sectorsIn_nil, ne_eq, sectorsIn_nil, exists_or]
  simp only [not_forall, ne_eq, not_not]

/-- One of the three reasons of R84. -/
abbrev reasonIn (u : State) : Prop :=
  u.automaticReason = true ∨ u.waitingReason = true ∨ u.pendingReason = true

theorem looks_of_reason {u : State} (hst : u.store.st = .mounted) (hidle : u.eng.st = .idle) (hr : reasonIn u) :
    (decide (u.store.st = .mounted) && decide (u.eng.st = .idle) &&
      (u.automaticReason || u.waitingReason || u.pendingReason)) = true := by
  rw [decide_eq_true hst, decide_eq_true hidle]
  rcases hr with h | h | h <;> simp [h]

/-- The engine, IDLE in MOUNTED with a reason, starts the unit of R85 (R84). -/
theorem lookForWork_starts {u : State} {k : UnitKind} {v : SectorIx} (hst : u.store.st = .mounted)
    (hidle : u.eng.st = .idle) (hr : reasonIn u) (hk : u.unitChoice = some (k, v)) :
    u.lookForWork = u.startUnit k v .automatic := by
  unfold State.lookForWork
  rw [if_pos (looks_of_reason hst hidle hr), hk]

/-- Without a unit the engine stalls under the automatic or the waiting reason, and whoever waits ends (R72, R99). -/
theorem lookForWork_finds_none {u : State} (hst : u.store.st = .mounted) (hidle : u.eng.st = .idle)
    (hk : u.unitChoice = none) : u.lookForWork = (u.noUnit, []) := by
  unfold State.lookForWork
  split
  · rw [hk]
  · rename_i hno
    have hauto : u.automaticReason = false := Bool.eq_false_iff.mpr fun h => hno (looks_of_reason hst hidle (.inl h))
    have hwait : u.waitingReason = false := Bool.eq_false_iff.mpr fun h => hno (looks_of_reason hst hidle (.inr (.inl h)))
    unfold State.noUnit
    rw [hauto, hwait]
    rfl

/-! ### Starting -/

theorem startUnit_pendingErase_erases {u : State} (hw : u.writable) {v : SectorIx} {o : Owner}
    (hcount : (u.sector v).eraseCount < 100000) : u.startUnit .pendingErase v o =
      ({ u with
        sectors := u.sectors.set v.val
          { u.sector v with st := .erasing, activation := 0, openingSeq := 0, live := 0, dead := 0 } v.isLt
        eng := unitBegun u.eng .erasing .pendingErase v o
        arr := u.arr.put .c (.erase v) }, []) := by
  unfold State.startUnit State.eraseOrRetire
  dsimp only
  rw [if_neg]
  · unfold State.beginErasing
    rw [place_of_writable]
    · rfl
    · exact hw
  · exact fun h => absurd (show 100000 ≤ (u.sector v).eraseCount from h) (by omega)

theorem startUnit_pendingErase_retires {u : State} {v : SectorIx} {o : Owner}
    (hcount : 100000 ≤ (u.sector v).eraseCount) : u.startUnit .pendingErase v o =
      State.beginRetiring { u with eng := unitBegun u.eng .erasing .pendingErase v o } v .endurance :=
  if_pos (c := Config.enduranceLimit ≤ (u.sector v).eraseCount) hcount

theorem walk_of_mounted {u : State} {v : SectorIx} (hst : u.store.st = .mounted) (hcur : u.eng.cursor < 256) :
    u.walk v = ({ u with arr := u.arr.put .c (.readRecord v u.eng.cursor .header) }, []) := by
  unfold State.walk State.haltStatus
  rw [hst]
  dsimp only
  rw [if_pos hcur, place_joins (.inl rfl)]

theorem startUnit_resumedPass {u : State} (hst : u.store.st = .mounted) {v : SectorIx} {o : Owner} :
    u.startUnit .resumedPass v o =
      ({ u with
        lw := { u.lw with reclaimRes := some ((u.sector v).live + 18) }
        eng := unitBegun u.eng .copying .resumedPass v o
        arr := u.arr.put .c (.readRecord v 2 .header) }, []) := by
  unfold State.startUnit
  dsimp only
  rw [walk_of_mounted]
  · rfl
  · exact hst
  · exact show 2 < 256 by decide

theorem takeSeq_of_room {u : State} {k : Nat} (h : u.lw.seqCtr + k ≤ 0xFFFFFFFF) :
    u.takeSeq k = (some u.lw.seqCtr, { u with lw := { u.lw with seqCtr := u.lw.seqCtr + k } }) := by
  unfold State.takeSeq
  exact if_pos h

theorem takeSeq_of_refused {u : State} {k : Nat} (h : 0xFFFFFFFF < u.lw.seqCtr + k) : u.takeSeq k = (none, u) := by
  unfold State.takeSeq
  exact if_neg (not_le.mpr h)

theorem startUnit_pass {u : State} (hw : u.writable) {v : SectorIx} {o : Owner} (hseq : u.lw.seqCtr + 1 ≤ 0xFFFFFFFF) :
    u.startUnit .pass v o =
      ({ u with
        eng := unitBegun u.eng .beginning .pass v o
        lw := LogWriter.readied
          { u.lw with reclaimRes := some ((u.sector v).live + 18), seqCtr := u.lw.seqCtr + 1 } .reclaim
          (reclaimBeginRecord v u.lw.seqCtr) }, [.serve]) := by
  unfold State.startUnit
  dsimp only
  rw [takeSeq_of_room]
  · dsimp only
    rw [offer_of_accepting]
    · rfl
    · exact accepting_of_writable hw
  · exact hseq

theorem startUnit_pass_refused {u : State} {v : SectorIx} {o : Owner} (hseq : 0xFFFFFFFF < u.lw.seqCtr + 1) :
    u.startUnit .pass v o =
      ({ u with
        eng := unitBegun u.eng .beginning .pass v o
        lw := { u.lw with reclaimRes := some ((u.sector v).live + 18) } },
        [.leaveMounted .sequence, .unitEnd .readOnly false]) := by
  unfold State.startUnit
  dsimp only
  rw [takeSeq_of_refused]
  · rfl
  · exact hseq

/-- The reservation with which the engine enters RETIRING (R95). -/
def retiringRes (u : State) : Option Nat :=
  if u.lw.reclaimRes = none ∧ u.heldLines + 18 ≤ u.freeLines then some 18 else u.lw.reclaimRes

theorem reserved_for_retiring {u : State} (hw : u.writable) :
    (if u.reclaimRoom Config.passMargin then u.reserveReclaim Config.passMargin else u) =
      { u with lw := { u.lw with reclaimRes := retiringRes u } } := by
  unfold retiringRes
  by_cases hroom : u.lw.reclaimRes = none ∧ u.heldLines + 18 ≤ u.freeLines
  · have hyes : u.reclaimRoom Config.passMargin = true := reclaimRoom_iff.mpr ⟨accepting_of_writable hw, hroom⟩
    rw [if_pos hyes, if_pos hroom]
    rfl
  · have hno : ¬ u.reclaimRoom Config.passMargin = true := fun h => hroom (reclaimRoom_iff.mp h).2
    rw [if_neg hno, if_neg hroom]

theorem beginRetiring_of_room {u : State} (hw : u.writable) {v : SectorIx} {cause : RetireCause}
    (hseq : u.lw.seqCtr + 1 ≤ 0xFFFFFFFF) : u.beginRetiring v cause =
      ({ u with
        eng := { u.eng with st := .retiring, cause := cause }
        lw := LogWriter.readied { u.lw with reclaimRes := retiringRes u, seqCtr := u.lw.seqCtr + 1 } .reclaim
          (retireRecord v u.lw.seqCtr) }, [.serve]) := by
  unfold State.beginRetiring
  dsimp only
  rw [reserved_for_retiring]
  · rw [takeSeq_of_room]
    · dsimp only
      rw [offer_of_accepting]
      · rfl
      · exact accepting_of_writable hw
    · exact hseq
  · exact hw

theorem beginRetiring_of_refused {u : State} (hw : u.writable) {v : SectorIx} {cause : RetireCause}
    (hseq : 0xFFFFFFFF < u.lw.seqCtr + 1) : u.beginRetiring v cause =
      (retiredIn { u with
        eng := { u.eng with st := .retiring, cause := cause }
        lw := { u.lw with reclaimRes := retiringRes u } } v none,
        .leaveMounted .sequence :: retirementSignals (retiredIn { u with
          eng := { u.eng with st := .retiring, cause := cause }
          lw := { u.lw with reclaimRes := retiringRes u } } v none) .readOnly) := by
  unfold State.beginRetiring
  dsimp only
  rw [reserved_for_retiring]
  · rw [takeSeq_of_refused]
    · dsimp only
      rw [retireDone_of_refused]
      rfl
    · exact hseq
  · exact hw

end Sys2Proof.Machine
end

section
/-! SUPPORT. What pends as the engine enters RETIRING, starts a unit, stalls or looks for work, and as whoever waits for
space repeats its request. -/

namespace Sys2Proof.Machine

set_option Elab.async false

section Pending
variable {c : Instr} {s : State} {stored : Nat → Prop} {F : State → Host.Outcome State Fault Refusal}
  {n : Nat} {gs : List Signal}

theorem queued_serve (gs : List Signal) : queued [.serve] gs = .serve :: gs := queued_inner (by simp [Signal.isApart]) gs

theorem queued_halt (gs : List Signal) : queued [.leaveMounted .sequence, .unitEnd .readOnly false] gs =
    .leaveMounted .sequence :: .unitEnd .readOnly false :: gs :=
  queued_inner (by simp [Signal.isApart]) gs

/-- The state in which the record that a unit has offered as it started is refused NO-SPACE. -/
abbrev refusedFresh (u y : State) : Prop :=
  y.lw.idle ∧ y.store = u.store ∧ y.tm = u.tm

/-- A unit over sector `v` meets a refused sequence number after a retirement (R41, R95). -/
theorem Pends.to_halts_of_retired {u : State} {v : SectorIx} {ends : State → Prop}
    (h : Pends c s stored F (n + 3) (.leaveMounted .sequence :: (retirementSignals u .readOnly ++ gs)) u)
    (hE : ∀ y, y.store.st = .readOnly → y.spaceWaiter = false → Pends c s stored F n gs y → ends y) :
    haltsTo u v ends := by
  refine Pends.to_leaves (n := n + 2) h fun y hst hw hy => ?_
  have hnot : y.store.st ≠ .mounted := by rw [hst]; exact nofun
  have hend : Pends c s stored F (n + 1) (.unitEnd .readOnly false :: gs) y := by
    unfold retirementSignals at hy
    split at hy
    · exact hy.same (leaveForReadOnly_of_not_mounted hnot _)
    · exact hy.mono (Nat.le_succ _)
  refine hend.to_unitEnds fun z ⟨_, hz⟩ hpend => ?_
  have hzst : z.store.st = .readOnly := by rw [hz]; exact hst
  rw [afterUnit_of_not_mounted (by rw [hzst]; exact nofun), queued_nil] at hpend
  exact hE z hzst (by rw [hz]; exact hw) hpend

/-- What the start of a unit leaves to who waits for space: no more lines are free than before, and no reservation of a
commit has gone. -/
structure StartLeaves (u y : State) : Prop where
  store : y.store = u.store
  tm : y.tm = u.tm
  settings : y.settings = u.settings
  free : y.freeLines ≤ u.freeLines
  res : y.lw.commitRes = u.lw.commitRes

theorem OfferLeaves.started {u y : State} {g : Engine} {w : LogWriter}
    (h : OfferLeaves .reclaim { u with eng := g } w y) (hp : w.point = u.lw.point)
    (hres : w.commitRes = u.lw.commitRes) : StartLeaves u y := by
  have hrest := h.rest
  refine ⟨?_, ?_, ?_, h.free.trans (Nat.le_of_eq ?_), (h.res rfl).trans hres⟩
  · rw [hrest]
  · rw [hrest]
  · rw [hrest]
  · exact freeLines_congr (y := { u with eng := g, lw := w }) hp fun _ => Iff.rfl

theorem OfferLeaves.eng {str : Stream} {u y : State} {w : LogWriter} (h : OfferLeaves str u w y) : y.eng = u.eng := by
  rw [h.rest]

/-- The engine enters RETIRING (R41, R95). -/
theorem Pends.to_retires {u : State} {v : SectorIx} {cause : RetireCause} {ends refused halted : State → Prop}
    (hw : u.writable)
    (h : Pends c s stored F (n + 4) (queued (u.beginRetiring v cause).2 gs) (u.beginRetiring v cause).1)
    (hE : ∀ y, y.eng.st = .retiring → StartLeaves u y → y.lw.current ≠ none ∨ y.lw.opening ≠ none →
      Pends c s stored F n gs y → ends y)
    (hR : ∀ y, y.eng.st = .retiring → refusedFresh u y →
      Pends c s stored F n (.refused .reclaim .noSpace :: .serve :: gs) y → refused y)
    (hH : ∀ y, y.store.st = .readOnly → y.spaceWaiter = false → Pends c s stored F n gs y → halted y) :
    retiresTo u v cause ends refused halted := by
  obtain ⟨hst, hlow, hstop⟩ := id hw
  refine ⟨fun hseq => ?_, fun hseq => ?_⟩
  · rw [beginRetiring_of_room hw hseq, queued_serve] at h
    refine Pends.to_reclaimOffers (n := n) (u := { u with eng := { u.eng with st := .retiring, cause := cause } })
      (h.mono (by omega)) hst hlow hstop (fun y hy hp => hE y ?_ (hy.started rfl rfl) hy.busy hp)
      fun y hy hidle hp => hR y ?_ ⟨?_, ?_, ?_⟩ hp
    · rw [hy.eng]
    · rw [hy]
    · rw [hy]
      exact hidle
    · rw [hy]
    · rw [hy]
  · rw [beginRetiring_of_refused hw hseq, queued_inner] at h
    · exact haltsTo_of_reserved (retiringRes u) (Pends.to_halts_of_retired (n := n) (h.mono (by omega)) hH)
    · unfold retirementSignals
      split <;> simp [Signal.isApart]

theorem freeLines_erasing {u : State} {v : SectorIx} {x : SectorEntry} {g : Engine} {a : Sequencer}
    (hv : (u.sector v).st = .erasePending) (hx : x.st = .erasing) :
    State.freeLines { u with sectors := u.sectors.set v.val x v.isLt, eng := g, arr := a } = u.freeLines := by
  refine freeLines_congr rfl fun j => ?_
  have hset : State.sector { u with sectors := u.sectors.set v.val x v.isLt, eng := g, arr := a } j =
      if j = v then x else u.sector j := vector_get_set _ _ _ _
  rw [hset]
  split
  · rename_i hj
    rw [hj, hx, hv]
    exact ⟨nofun, nofun⟩
  · exact Iff.rfl

/-- The unit of R85 is started (R85, R87, R96, R97). -/
theorem Pends.to_starts {u : State} {o : Owner} {ends refused halted : State → Prop}
    (h : ∀ k v, u.unitChoice = some (k, v) →
      Pends c s stored F (n + 4) (queued (u.startUnit k v o).2 gs) (u.startUnit k v o).1)
    (hE : ∀ y, y.eng.st ≠ .idle → StartLeaves u y → Pends c s stored F n gs y → ends y)
    (hR : ∀ y, y.eng.st ≠ .idle → refusedFresh u y →
      Pends c s stored F n (.refused .reclaim .noSpace :: .serve :: gs) y → refused y)
    (hH : ∀ y, y.store.st = .readOnly → y.spaceWaiter = false → Pends c s stored F n gs y → halted y) :
    startsTo u o ends refused halted := by
  intro hw
  obtain ⟨hst, hlow, hstop⟩ := id hw
  refine ⟨fun v hv => ⟨fun hcount => ?_, fun hcount => ?_⟩, fun v hp hv hres hroom => ?_, fun v hno hv hres =>
    ⟨fun hseq => ?_, fun hseq => ?_⟩⟩
  · have hstart := h _ v (unitChoice_pendingErase hv)
    rw [startUnit_pendingErase_erases hw hcount, queued_nil] at hstart
    exact hE _ nofun ⟨rfl, rfl, rfl, Nat.le_of_eq (freeLines_erasing hv.1 rfl), rfl⟩ (hstart.mono (by omega))
  · have hstart := h _ v (unitChoice_pendingErase hv)
    rw [startUnit_pendingErase_retires hcount] at hstart
    refine Pends.to_retires (n := n) (u := { u with eng := unitBegun u.eng .erasing .pendingErase v o }) hw hstart
      (fun y hst hy _ hp => hE y (by rw [hst]; exact nofun) ⟨hy.store, hy.tm, hy.settings, hy.free, hy.res⟩ hp)
      (fun y hst hfresh hy => hR y (by rw [hst]; exact nofun) hfresh hy) hH
  · have hchoice : u.unitChoice = some (.resumedPass, v) := by
      rw [unitChoice_resumedPass hp hv, if_pos (reclaimRoom_iff.mpr ⟨accepting_of_writable hw, hres, hroom⟩)]
    have hstart := h _ v hchoice
    rw [startUnit_resumedPass hst, queued_nil] at hstart
    exact hE _ nofun ⟨rfl, rfl, rfl, Nat.le_refl _, rfl⟩ (hstart.mono (by omega))
  all_goals
    have hchoice : u.unitChoice = some (.pass, v) := by
      rw [unitChoice_pass (fun j => (hno j).1) (fun j => (hno j).2),
        victim_of_victimIn (accepting_of_writable hw) hres hv, Option.map_some]
    have hstart := h _ v hchoice
  · rw [startUnit_pass hw hseq, queued_serve] at hstart
    refine Pends.to_reclaimOffers (n := n) (u := { u with eng := unitBegun u.eng .beginning .pass v o })
      (hstart.mono (by omega)) hst hlow hstop (fun y hy hp => hE y ?_ (hy.started rfl rfl) hp)
      fun y hy hidle hp => hR y ?_ ⟨?_, ?_, ?_⟩ hp
    · rw [hy.eng]
      exact nofun
    · rw [hy]
      exact nofun
    · rw [hy]
      exact hidle
    · rw [hy]
    · rw [hy]
  · rw [startUnit_pass_refused hseq, queued_halt] at hstart
    exact Pends.to_halts (n := n) (hstart.mono (by omega)) hH

/-! ### The look -/

/-- STALLED set, RECLAIM-STALLED raised when it was clear (R99). -/
theorem setStalled_eq (u : State) : u.setStalled =
    { u with
      win := if u.eng.stalled then u.win else u.win.raised .reclaimStalled
      eng := { u.eng with stalled := true } } := by
  unfold State.setStalled State.raiseIf
  cases u.eng.stalled <;> rfl

theorem setStalled_of_stalled {u : State} (h : u.eng.stalled = true) : u.setStalled = u := by
  rw [setStalled_eq, h, if_pos rfl, ← h]

theorem noUnit_of_waiting {u : State} (h : u.waitingReason = true) : u.noUnit = u.setStalled.failWaiter .noSpace := by
  unfold State.noUnit
  rw [h, Bool.or_true]
  rfl

theorem noUnit_of_automatic {u : State} (hw : u.waitingReason = false) (h : u.automaticReason = true) :
    u.noUnit = u.setStalled := by
  unfold State.noUnit
  rw [hw, h]
  rfl

theorem noUnit_of_none {u : State} (hw : u.waitingReason = false) (h : u.automaticReason = false) : u.noUnit = u := by
  unfold State.noUnit
  rw [hw, h]
  rfl

theorem waitingReason_of_none {u : State} (h : u.spaceWaiter = false) : u.waitingReason = false := by
  unfold State.waitingReason
  rw [h, Bool.and_false]

/-- An engine that has found no unit, nobody waiting, finds none again and changes nothing by it (R99). -/
theorem look_again {y : State} (hst : y.store.st = .mounted) (hidle : y.eng.st = .idle) (hnone : unitless y)
    (hw : y.spaceWaiter = false) (hstalled : y.automaticReason = true → y.eng.stalled = true) :
    y.lookForWork = (y, []) := by
  rw [lookForWork_finds_none hst hidle (unitChoice_none hnone)]
  refine congrArg (·, []) ?_
  cases hr : y.automaticReason with
  | false => exact noUnit_of_none (waitingReason_of_none hw) hr
  | true => rw [noUnit_of_automatic (waitingReason_of_none hw) hr, setStalled_of_stalled (hstalled hr)]

/-- A look that would change nothing after a grant either. -/
abbrev lookStill (y : State) : Prop :=
  y.grant.lookForWork = (y.grant, [])

theorem lookStill_of {y : State} (hst : y.store.st = .mounted) (hidle : y.eng.st = .idle) (hnone : unitless y)
    (hw : y.spaceWaiter = false) (hstalled : y.automaticReason = true → y.eng.stalled = true) : lookStill y := by
  refine look_again ?_ ?_ ?_ ?_ ?_ <;> rw [(granted y).rest]
  · exact hst
  · exact hidle
  · exact hnone
  · exact hw
  · exact hstalled

/-- After the end of whoever waits the engine finds what it found before: nobody waits, or that end frees nothing. -/
abbrev settles (u : State) : Prop :=
  u.spaceWaiter = false ∨ unmarked u

theorem unitless_congr {u y : State} (hsectors : y.sectors = u.sectors) (hlw : y.lw = u.lw) (h : unitless u) :
    unitless y := by
  unfold unitless lowestIn passable State.heldLines State.freeLines State.blankCount State.sectorsIn State.sector at h ⊢
  rw [hsectors, hlw]
  exact h

/-- The engine finds no unit (R72, R99). -/
theorem Pends.to_stalls {u g : State} {ends : State → Prop} (hg : g = { u with flash := g.flash, arr := g.arr })
    (hst : u.store.st = .mounted) (hidle : u.eng.st = .idle) (hauto : u.settings.autoReclaim = 1)
    (h : Pends c s stored F n (queued g.lookForWork.2 gs) g.lookForWork.1)
    (hE : ∀ y, y.store = u.store → y.spaceWaiter = false → (settles u → lookStill y) →
      Pends c s stored F n gs y → ends y) : stallsTo u g ends := by
  obtain ⟨fl, ar, rfl⟩ : ∃ fl ar, g = { u with flash := fl, arr := ar } := ⟨_, _, hg⟩
  have found (hnone : unitless u) : Pends c s stored F n gs (State.noUnit { u with flash := fl, arr := ar }) := by
    rw [lookForWork_finds_none (u := { u with flash := fl, arr := ar }) hst hidle
      (unitChoice_none (u := { u with flash := fl, arr := ar }) hnone), queued_nil] at h
    exact h
  refine ⟨fun hnone hshort hno => ?_, fun hnone hw hone => ?_, fun hnone hshort hno => ?_⟩
  · have hr : State.automaticReason { u with flash := fl, arr := ar } = true :=
      automaticReason_iff.mpr ⟨hauto, hshort⟩
    have hy := found hnone
    rw [noUnit_of_automatic (waitingReason_of_none (u := { u with flash := fl, arr := ar }) hno) hr, setStalled_eq] at hy
    refine hE _ rfl hno (fun _ => lookStill_of ?_ ?_ ?_ ?_ fun _ => rfl) hy
    · exact hst
    · exact hidle
    · exact hnone
    · exact hno
  · have hr : State.waitingReason { u with flash := fl, arr := ar } = true := waitingReason_iff.mpr ⟨hauto, hw⟩
    have hy := found hnone
    rw [noUnit_of_waiting hr, setStalled_eq] at hy
    refine writeFailsTo_of_failWaiter hone hw fun hgone hstore heng hkept =>
      hE _ hstore (spaceWaiter_of_gone hgone) (fun hset => ?_) hy
    have hun : unmarked u := hset.resolve_left (by rw [hw]; exact nofun)
    obtain ⟨hsectors, hlw⟩ := hkept hun
    refine lookStill_of ?_ ?_ (unitless_congr hsectors hlw hnone) (spaceWaiter_of_gone hgone) fun _ => ?_
    · rw [hstore]
      exact hst
    · rw [heng]
      exact hidle
    · rw [heng]
  · have hr : State.automaticReason { u with flash := fl, arr := ar } = false :=
      Bool.eq_false_iff.mpr fun hr => hshort (automaticReason_iff.mp hr).2
    have hy := found hnone
    rw [noUnit_of_none (waitingReason_of_none (u := { u with flash := fl, arr := ar }) hno) hr] at hy
    refine hE _ rfl hno (fun _ => lookStill_of ?_ ?_ ?_ ?_ ?_) hy
    · exact hst
    · exact hidle
    · exact hnone
    · exact hno
    · intro hyes
      rw [hr] at hyes
      exact nomatch hyes

/-- The IDLE engine looks for work under AUTO-RECLAIM 1 (R84, R85, R99). -/
theorem Pends.to_looks {u g : State} {ends refused : State → Prop} (hg : g = { u with flash := g.flash, arr := g.arr })
    (h : Pends c s stored F (n + 4) (queued g.lookForWork.2 gs) g.lookForWork.1)
    (hS : ∀ y, y.eng.st ≠ .idle → StartLeaves g y → Pends c s stored F n gs y → ends y)
    (hN : ∀ y, y.store = u.store → y.spaceWaiter = false → (settles u → lookStill y) →
      Pends c s stored F n gs y → ends y)
    (hR : ∀ y, y.eng.st ≠ .idle → refusedFresh u y →
      Pends c s stored F n (.refused .reclaim .noSpace :: .serve :: gs) y → refused y)
    (hH : ∀ y, y.store.st = .readOnly → y.spaceWaiter = false → Pends c s stored F n gs y → ends y) :
    looksTo u g ends refused := by
  refine fun hst hidle hauto => ⟨fun hreason => ?_, Pends.to_stalls hg hst hidle hauto (h.mono (by omega)) hN⟩
  obtain ⟨fl, ar, rfl⟩ : ∃ fl ar, g = { u with flash := fl, arr := ar } := ⟨_, _, hg⟩
  have hr : reasonIn { u with flash := fl, arr := ar } := by
    rcases hreason with hshort | hw | hpend
    · exact .inl (automaticReason_iff.mpr ⟨hauto, hshort⟩)
    · exact .inr (.inl (waitingReason_iff.mpr ⟨hauto, hw⟩))
    · exact .inr (.inr (pendingReason_iff.mpr ⟨hauto, hpend⟩))
  refine Pends.to_starts (n := n) (gs := gs) (fun k v hk => ?_) hS hR hH
  rw [lookForWork_starts (u := { u with flash := fl, arr := ar }) hst hidle hr hk] at h
  exact h

/-! ### The request of whoever waits -/

theorem commitRoom_iff {u : State} {k : Nat} : u.commitRoom k = true ↔
    u.accepting = true ∧ u.lw.commitRes = none ∧ u.heldLines + k + 272 ≤ u.freeLines := by
  unfold State.commitRoom
  rw [Bool.and_eq_true, Bool.and_eq_true, decide_eq_true_iff, Option.isNone_iff_eq_none, and_assoc]
  rfl

theorem spaceWaiter_of_commit {u : State} {f : CommitFlight} (hf : u.tm.commit = some f)
    (hphase : f.phase = .waitingSpace) : u.spaceWaiter = true := by
  unfold State.spaceWaiter
  rw [hf]
  simp [hphase]

theorem spaceWaiter_of_settings {u : State} {f : SettingsFlight} (hf : u.tm.settings = some f)
    (hphase : f.phase = .waitingSpace) : u.spaceWaiter = true := by
  unfold State.spaceWaiter
  rw [hf]
  simp [hphase]

/-- The commit that waits repeats its request (R71). -/
theorem requestSpace_of_commit {u : State} {f : CommitFlight} (hf : u.tm.commit = some f)
    (hphase : f.phase = .waitingSpace) :
    u.requestSpace = if u.commitRoom f.amount then u.commitGranted f else u.notGranted := by
  unfold State.requestSpace
  rw [hf]
  exact if_pos hphase

/-- The settings write that waits repeats its request (R71, R82). -/
theorem requestSpace_of_settings {u : State} {f : SettingsFlight} (hc : u.tm.commit = none) (hf : u.tm.settings = some f)
    (hphase : f.phase = .waitingSpace) :
    u.requestSpace = if u.commitRoom settingsAmount then u.settingsGranted f else u.notGranted := by
  unfold State.requestSpace
  rw [hc]
  dsimp only
  rw [hf]
  exact if_pos hphase

theorem requestSpace_of_none {u : State} (h : u.spaceWaiter = false) : u.requestSpace = (u, []) := by
  unfold State.spaceWaiter at h
  rw [Bool.or_eq_false_iff] at h
  obtain ⟨hc, hs⟩ := h
  unfold State.requestSpace
  cases hcommit : u.tm.commit with
  | none =>
    dsimp only
    cases hset : u.tm.settings with
    | none => rfl
    | some g =>
      rw [hset] at hs
      exact if_neg (of_decide_eq_false hs)
  | some f =>
    rw [hcommit] at hc
    exact if_neg (of_decide_eq_false hc)

/-- The block of numbers a commit takes is as long as its records (R73). -/
theorem recordsOf_eq_blockOf (op : Staged) (ops : List Staged) : recordsOf (ops.length + 1) = blockOf (op :: ops) := by
  unfold recordsOf blockOf
  rw [List.length_cons]

/-- The commit's next record is offered while the Log Writer accepts records (R75). -/
theorem offerCommit_of_accepting {u : State} (hacc : u.accepting = true) (f : CommitFlight) : u.offerCommit f =
    ({ u with
      tm := { u.tm with commit := some { f with nextIx := f.nextIx + 1 } }
      lw := u.lw.readied .commit (u.commitRecordAt f f.nextIx) }, [.serve]) :=
  offer_of_accepting (s := u.setCommit (some { f with nextIx := f.nextIx + 1 })) hacc _ _

/-- The record of the first operation is of a SOLO transaction when it is the only one (R74). -/
theorem commitRecordAt_first {u : State} {f : CommitFlight} {op : Staged} {ops : List Staged}
    (hl : u.tm.staging = op :: ops) (hn : f.n = ops.length + 1) (htxn : ops = [] → f.txn = 0) :
    u.commitRecordAt f 0 = op.record (decide (ops = [])) f.txn f.first := by
  unfold State.commitRecordAt
  rw [hl]
  cases ops with
  | nil => exact (if_pos hn).trans (by rw [htxn rfl]; rfl)
  | cons a l =>
    refine (if_neg fun h1 => ?_).trans ?_
    · rw [hn, List.length_cons] at h1
      omega
    · rfl

/-- The commit whose reservation is granted takes its numbers and offers its first record (R73, R74). -/
theorem commitGranted_of_room {u : State} {f : CommitFlight} {op : Staged} {ops : List Staged}
    (hacc : u.accepting = true) (hl : u.tm.staging = op :: ops) (hn : f.n = ops.length + 1) (hix : f.nextIx = 0)
    (htxn : f.txn = 0) (hseq : u.lw.seqCtr + blockOf (op :: ops) ≤ 0xFFFFFFFF) : u.commitGranted f =
      ({ u with
        tm := { u.tm with commit := some { f with
          phase := .writing, first := u.lw.seqCtr, txn := if ops = [] then 0 else u.lw.txnCtr, nextIx := 1 } }
        lw := LogWriter.readied { u.lw with
          commitRes := some f.amount, seqCtr := u.lw.seqCtr + blockOf (op :: ops)
          txnCtr := if ops = [] then u.lw.txnCtr else txnAfter u.lw.txnCtr } .commit
          (op.record (decide (ops = [])) (if ops = [] then 0 else u.lw.txnCtr) u.lw.seqCtr) }, [.serve]) := by
  have hblock : recordsOf f.n = blockOf (op :: ops) := hn ▸ recordsOf_eq_blockOf op ops
  unfold State.commitGranted
  rw [hblock, takeSeq_of_room]
  · dsimp only
    by_cases hone : ops = []
    · subst hone
      rw [if_pos (show f.n = 1 from hn), offerCommit_of_accepting]
      · dsimp only
        rw [hix, commitRecordAt_first (op := op) (ops := [])]
        · simp only [if_true, htxn]
          rfl
        · exact hl
        · exact hn
        · exact fun _ => htxn
      · exact hacc
    · have hlen : ¬ f.n = 1 := fun h => hone (List.length_eq_zero_iff.mp (by omega))
      rw [if_neg hlen, offerCommit_of_accepting]
      · dsimp only
        rw [hix, commitRecordAt_first (op := op) (ops := ops)]
        · simp only [if_neg hone]
          rfl
        · exact hl
        · exact hn
        · exact fun h => absurd h hone
      · exact hacc
  · exact hseq

theorem commitGranted_of_refused {u : State} {f : CommitFlight} {op : Staged} {ops : List Staged}
    (hn : f.n = ops.length + 1) (hseq : 0xFFFFFFFF < u.lw.seqCtr + blockOf (op :: ops)) : u.commitGranted f =
      (u.reserveCommit f.amount, [.leaveMounted .sequence]) := by
  have hblock : recordsOf f.n = blockOf (op :: ops) := hn ▸ recordsOf_eq_blockOf op ops
  unfold State.commitGranted
  rw [hblock, takeSeq_of_refused]
  exact hseq

theorem settingsGranted_of_room {u : State} {f : SettingsFlight} (hacc : u.accepting = true)
    (hseq : u.lw.seqCtr + 1 ≤ 0xFFFFFFFF) : u.settingsGranted f =
      ({ u with
        tm := { u.tm with settings := some { f with phase := .writing, seq := u.lw.seqCtr } }
        lw := LogWriter.readied { u.lw with commitRes := some 37, seqCtr := u.lw.seqCtr + 1 } .commit
          (settingsRecord f.payload u.lw.seqCtr) }, [.serve]) := by
  unfold State.settingsGranted
  rw [takeSeq_of_room]
  · dsimp only
    rw [offer_of_accepting]
    · rfl
    · exact hacc
  · exact hseq

theorem settingsGranted_of_refused {u : State} {f : SettingsFlight} (hseq : 0xFFFFFFFF < u.lw.seqCtr + 1) :
    u.settingsGranted f = (u.reserveCommit 37, [.leaveMounted .sequence]) := by
  unfold State.settingsGranted
  rw [takeSeq_of_refused]
  · rfl
  · exact hseq

theorem notGranted_of_wait {u : State} (h : u.settings.autoReclaim = 1) : u.notGranted = (u, []) := by
  unfold State.notGranted
  exact if_neg (by omega)

theorem notGranted_of_end {u : State} (h : u.settings.autoReclaim = 0) : u.notGranted = (u.failWaiter .noSpace, []) := by
  unfold State.notGranted
  exact if_pos h

/-- Whoever waits for space repeats its request (R71, R72, R73, R82). -/
theorem Pends.to_requests {g : State} {ends waits : State → Prop}
    (h : Pends c s stored F (n + 1) (queued g.requestSpace.2 gs) g.requestSpace.1)
    (hE : ∀ y, y.spaceWaiter = false → Pends c s stored F n gs y → ends y)
    (hW : g.settings.autoReclaim = 1 → Pends c s stored F n gs g → waits g) : requestsTo g ends waits := by
  intro hw hres
  obtain ⟨hst, hlow, hstop⟩ := id hw
  have hacc := accepting_of_writable hw
  have waited {amount : Nat} {a : Answer} (hroom : g.freeLines < g.heldLines + amount + 272)
      (hr : g.requestSpace = if g.commitRoom amount then a else g.notGranted) :
      g.requestSpace = g.notGranted := by
    rw [hr, if_neg]
    rw [commitRoom_iff]
    omega
  have granted {amount : Nat} {a : Answer} (hroom : g.heldLines + amount + 272 ≤ g.freeLines)
      (hr : g.requestSpace = if g.commitRoom amount then a else g.notGranted) : g.requestSpace = a := by
    rw [hr, if_pos (commitRoom_iff.mpr ⟨hacc, hres, hroom⟩)]
  have goesOn {amount : Nat} {a : Answer} (hone : oneWrite g) (hwait : g.spaceWaiter = true)
      (hr : g.requestSpace = if g.commitRoom amount then a else g.notGranted) :
      (g.freeLines < g.heldLines + amount + 272 → g.settings.autoReclaim = 1 → waits g) ∧
        (g.freeLines < g.heldLines + amount + 272 → g.settings.autoReclaim = 0 → writeFailsTo g .noSpace ends) := by
    refine ⟨fun hroom hauto => ?_, fun hroom hauto => ?_⟩
    · rw [waited hroom hr, notGranted_of_wait hauto, queued_nil] at h
      exact hW hauto (h.mono (Nat.le_succ _))
    · rw [waited hroom hr, notGranted_of_end hauto, queued_nil] at h
      exact writeFailsTo_of_failWaiter hone hwait fun hgone _ _ _ =>
        hE _ (spaceWaiter_of_gone hgone) (h.mono (Nat.le_succ _))
  refine ⟨fun f op ops hf hphase hset hl hn hix htxn => ?_, fun f hc hf hphase => ?_⟩
  · have hreq := requestSpace_of_commit hf hphase
    have hwait := spaceWaiter_of_commit hf hphase
    refine ⟨fun hroom => ⟨fun hseq => ?_, fun hseq => ?_⟩, goesOn (.inr hset) hwait hreq⟩
    · rw [granted hroom hreq, commitGranted_of_room hacc hl hn hix htxn hseq, queued_serve] at h
      refine Pends.to_offers h hst hlow hstop fun y hy hp => hE y ?_ hp
      unfold State.spaceWaiter
      rw [hy.rest, hset]
      rfl
    · rw [granted hroom hreq, commitGranted_of_refused hn hseq, queued_inner (by simp [Signal.isApart])] at h
      exact leavesTo_of_reserved (some _) hwait (Pends.to_leaves h fun y _ hy hp => hE y hy hp)
  · have hreq := requestSpace_of_settings hc hf hphase
    have hwait := spaceWaiter_of_settings hf hphase
    refine ⟨fun hroom => ⟨fun hseq => ?_, fun hseq => ?_⟩, goesOn (.inl hc) hwait hreq⟩
    · rw [granted hroom hreq, settingsGranted_of_room hacc hseq, queued_serve] at h
      refine Pends.to_offers h hst hlow hstop fun y hy hp => hE y ?_ hp
      unfold State.spaceWaiter
      rw [hy.rest, hc]
      rfl
    · rw [granted hroom hreq, settingsGranted_of_refused hseq, queued_inner (by simp [Signal.isApart])] at h
      exact leavesTo_of_reserved (some _) hwait (Pends.to_leaves h fun y _ hy hp => hE y hy hp)

end Pending

end Sys2Proof.Machine
end

section
/-! SUPPORT. The end of a step with the engine's look before it, or in it: from what pends to the statements' terms for
the rest of a step. -/

namespace Sys2Proof.Machine

set_option Elab.async false

section Pending
variable {c : Instr} {s : State} {stored : Nat → Prop} {F : State → Host.Outcome State Fault Refusal}
  {n : Nat} {gs : List Signal}

/-! ### Quiet ends -/

theorem endsIn_of_granted {y : State} (h : endsIn c s y.grant stored) : endsIn c s y stored := by
  obtain ⟨hexec, -, hb⟩ := h
  rw [grant_grant] at hexec hb
  exact ⟨hexec, (granted y).rest, hb⟩

theorem Pends.exec_eq {y : State} (h : Pends c s stored F n [] y) : exec c s = F y := by
  obtain ⟨⟨m, -, hrun⟩, -⟩ := h
  rw [hrun, drainThen, drain_nil]
  rfl

/-- A grant made a little earlier changes nothing at the look. -/
theorem lookAhead_grant (y : State) : lookAhead y.grant = lookAhead y := by
  have hlook : drain Config.cascadeBound [.look] y.grant = drain Config.cascadeBound [.look] y := by
    rw [show Config.cascadeBound = 399 + 1 from rfl, drain_cons, drain_cons]
    unfold State.handle
    simp only [grant_grant]
  unfold lookAhead conclude
  rw [settle_nil, settle_nil, Option.bind_some, Option.bind_some, hlook]

/-- What closes a step in which the engine rests. -/
abbrev closesQuiet (F : State → Host.Outcome State Fault Refusal) : Prop :=
  ∀ y : State, y.engineRests → F y = .next y.grant

theorem closesQuiet_closing : closesQuiet closing := fun _ _ => rfl

theorem closesQuiet_lookAhead : closesQuiet lookAhead := fun _ h => conclude_quiet h

theorem Pends.ends_quiet {y : State} (hF : closesQuiet F) (h : Pends c s stored F n [] y) (hq : y.engineRests) :
    endsIn c s y stored :=
  endsIn_of (h.exec_eq.trans (hF y hq)) h.bytes

/-- The Log Writer has nothing to choose. -/
abbrev servesNothing (y : State) : Prop :=
  y.accepting = false ∨ y.lw.current ≠ none ∨ y.lw.opening ≠ none ∨ (y.lw.commitReady = none ∧ y.lw.reclaimReady = none)

theorem servesNothing_grant {y : State} (h : servesNothing y) : servesNothing y.grant := by
  rw [(granted y).rest]
  exact h

theorem spaceWaiter_grant {y : State} (h : y.spaceWaiter = false) : y.grant.spaceWaiter = false := by
  rw [(granted y).rest]
  exact h

/-- What closes a step does not mind a grant made a little earlier. -/
abbrev mindsNoGrant (F : State → Host.Outcome State Fault Refusal) : Prop :=
  ∀ y : State, F y.grant = F y

theorem mindsNoGrant_closing : mindsNoGrant closing := fun y => congrArg Host.Outcome.next (grant_grant y)

theorem Pends.ungrant {y : State} (hF : mindsNoGrant F) (h : Pends c s stored F n [] y.grant)
    (hb : bytesKept s y stored) : Pends c s stored F n [] y := by
  refine ⟨⟨n, Nat.le_refl _, ?_⟩, hb⟩
  rw [h.exec_eq, hF, drainThen, drain_nil]
  rfl

/-- A choice of the Log Writer, a repeated request and a look that come to nothing leave nothing to happen. -/
theorem Pends.skip_idle {y : State} (hF : mindsNoGrant F) (hgs : ∀ g ∈ gs, g = .serve ∨ g = .request ∨ g = .look)
    (h : Pends c s stored F gs.length gs y) (hs : servesNothing y) (hw : y.spaceWaiter = false) (hq : y.engineRests) :
    Pends c s stored F 0 [] y := by
  induction gs generalizing y with
  | nil => exact h
  | cons g gs ih =>
    rw [List.forall_mem_cons] at hgs
    obtain ⟨hg, hgs⟩ := hgs
    have later (hy : y.handle g = (y.grant, [])) : Pends c s stored F 0 [] y := by
      have hpend := h.handle hy
      rw [queued_nil] at hpend
      exact Pends.ungrant hF
        (ih hgs hpend (servesNothing_grant hs) (spaceWaiter_grant hw) (engineRests_grant hq)) h.bytes
    rcases hg with rfl | rfl | rfl
    · exact ih hgs (h.serve_rests hs) hs hw hq
    · exact later (requestSpace_of_none (spaceWaiter_grant hw))
    · exact later (lookForWork_quiet (engineRests_grant hq))

/-! ### A unit refused as it starts -/

theorem afterUnit_of_none {y : State} (hst : y.store.st = .mounted) (hw : y.spaceWaiter = false) :
    y.afterUnit = (y, [.look]) := by
  unfold State.afterUnit
  rw [if_pos hst, hw]
  rfl

theorem not_accepting_of_readOnly {y : State} (h : y.store.st = .readOnly) : y.accepting = false := by
  unfold State.accepting
  rw [h]
  rfl

theorem servesNothing_of_posted {u y : State} (hlw : servesNothing u) (h : unitPosted u y) : servesNothing y := by
  obtain ⟨-, ⟨hy, hstore, -⟩ | ⟨hst, -⟩⟩ := h
  · unfold servesNothing State.accepting at *
    rw [hy, hstore]
    exact hlw
  · exact .inl (not_accepting_of_readOnly hst)

/-- A unit that ends as its first record is refused, with nothing left to do behind it. -/
theorem Pends.to_refusedAtOnce {u y : State} {ends : State → Prop} (hF : mindsNoGrant F)
    (hgs : ∀ g ∈ gs, g = .serve ∨ g = .request ∨ g = .look) (hfresh : refusedFresh u y)
    (h : Pends c s stored F (gs.length + 5) (.refused .reclaim .noSpace :: .serve :: gs) y)
    (hE : ∀ z, z.engineRests → Pends c s stored F 0 [] z → ends z) : refusedAtOnce ends y := by
  obtain ⟨⟨hcur, hopen, hc, hr⟩, -, -⟩ := hfresh
  have hserve : servesNothing y := .inr (.inr (.inr ⟨hc, hr⟩))
  refine Pends.to_refuses (n := gs.length + 2) h nofun fun z hpost hz hq hw => hE z hq ?_
  have hzs := servesNothing_of_posted hserve hpost
  have hserved : ∀ g ∈ Signal.serve :: gs, g = .serve ∨ g = .request ∨ g = .look :=
    List.forall_mem_cons.mpr ⟨.inl rfl, hgs⟩
  by_cases hst : z.store.st = .mounted
  · rw [afterUnit_of_none hst hw, queued_apart (by simp [Signal.isApart])] at hz
    refine Pends.skip_idle hF (gs := .serve :: gs ++ [.look]) ?_ (by simpa using hz) hzs hw hq
    exact List.forall_mem_append.mpr ⟨hserved, by simp⟩
  · rw [afterUnit_of_not_mounted hst, queued_nil] at hz
    exact Pends.skip_idle hF (gs := .serve :: gs) hserved (hz.mono (Nat.le_succ _)) hzs hw hq

/-! ### The look at the end of a step -/

theorem rests_of_busy {y : State} (h : y.eng.st ≠ .idle) : y.engineRests := .inr (.inl h)

theorem rests_of_readOnly {y : State} (h : y.store.st = .readOnly) : y.engineRests := .inl (by rw [h]; exact nofun)

/-- The engine looks, and the step ends by what it finds (R84, R107). -/
theorem Pends.to_looks_end {u g : State} (hF : closesQuiet F) (hG : mindsNoGrant F) (hg : g = { u with flash := g.flash, arr := g.arr })
    (h : Pends c s stored F 20 (queued g.lookForWork.2 []) g.lookForWork.1)
    (hstill : ∀ y, y.spaceWaiter = false → (settles u → lookStill y) → F y = .next y.grant) :
    looksTo u g (fun x => endsIn c s x stored) (refusedAtOnce (fun x => endsIn c s x stored)) := by
  refine Pends.to_looks (n := 5) (gs := []) hg (h.mono (by omega)) (fun y hbusy _ hy => hy.ends_quiet hF (rests_of_busy hbusy))
    (fun y _ hw hlook hy => endsIn_of (hy.exec_eq.trans (hstill y hw hlook)) hy.bytes)
    (fun y _ hfresh hy => Pends.to_refusedAtOnce (gs := []) hG (by simp) hfresh hy fun z hq hz => hz.ends_quiet hF hq)
    fun y hst _ hy => hy.ends_quiet hF (rests_of_readOnly hst)

/-- A state in which nothing pends but the step's own look (R84, R107). -/
theorem Pends.concludes {y : State} (h : Pends c s stored lookAhead n [] y) : concludesIn c s y stored := by
  refine ⟨h.ends_quiet closesQuiet_lookAhead, ?_⟩
  have hlook := h.look
  exact Pends.to_looks_end closesQuiet_closing mindsNoGrant_closing (granted y).rest ((hlook.handle (n := 399) rfl).mono (by omega))
    fun _ _ _ => rfl

/-- A state in which the engine's look pends, nobody waiting for space: the step's own look finds what it found. -/
theorem Pends.concludes_of_look {y : State} (h : Pends c s stored lookAhead 21 [.look] y)
    (hw : y.spaceWaiter = false) : concludesIn c s y stored := by
  refine ⟨fun hq => ?_, ?_⟩
  · have hquiet : y.handle .look = (y.grant, []) := lookForWork_quiet (engineRests_grant hq)
    exact endsIn_of_granted ((h.handle hquiet).ends_quiet closesQuiet_lookAhead (engineRests_grant hq))
  · exact Pends.to_looks_end closesQuiet_lookAhead lookAhead_grant (granted y).rest (h.handle rfl)
      fun z _ hlook => conclude_of_look (hlook (.inl hw))

/-! ### The end of a unit -/

theorem afterUnit_of_waiter {y : State} (hst : y.store.st = .mounted) (hw : y.spaceWaiter = true) : y.afterUnit =
    ({ y with freeCount := y.freeCount + 1 },
      if Config.searchFirst y.freeCount then [.look, .request] else [.request, .look]) := by
  unfold State.afterUnit
  rw [if_pos hst, if_pos hw]
  rfl

/-- The request pends, nobody waiting: it comes to nothing. -/
theorem Pends.concludes_of_request {y : State} (h : Pends c s stored lookAhead (n + 1) [.request] y)
    (hw : y.spaceWaiter = false) : concludesIn c s y stored := by
  have hnone : y.handle .request = (y.grant, []) := requestSpace_of_none (spaceWaiter_grant hw)
  exact (Pends.ungrant lookAhead_grant (h.handle hnone) h.bytes).concludes

/-- The engine's search comes first, and then the request of whoever waits (R71, R84, R98; log 9). -/
theorem Pends.to_search_request {w : State} (hst : w.store.st = .mounted) (hidle : w.eng.st = .idle)
    (hw : w.spaceWaiter = true) (h : Pends c s stored lookAhead 40 [.look, .request] w) :
    (w.settings.autoReclaim = 1 → stallsTo w w.grant (fun x => concludesIn c s x stored) ∧
      startsTo w.grant .automatic
        (fun x => requestsTo x.grant (fun y => concludesIn c s y stored) (fun y => concludesIn c s y stored))
        (refusedAtOnce (fun x => endsIn c s x stored)) (fun x => concludesIn c s x stored)) ∧
    (w.settings.autoReclaim ≠ 1 →
      requestsTo w.grant (fun y => concludesIn c s y stored) (fun y => concludesIn c s y stored)) := by
  have asks {y : State} (hy : Pends c s stored lookAhead 10 [.request] y) :
      requestsTo y.grant (fun y => concludesIn c s y stored) (fun y => concludesIn c s y stored) :=
    Pends.to_requests (n := 0) (gs := []) ((hy.handle (n := 9) rfl).mono (by omega)) (fun _ _ hz => hz.concludes)
      fun _ hz => hz.concludes
  have hlook : Pends c s stored lookAhead 39 (queued w.grant.lookForWork.2 [.request]) w.grant.lookForWork.1 :=
    h.handle rfl
  refine ⟨fun hauto => ⟨?_, ?_⟩, fun hauto => ?_⟩
  · exact Pends.to_stalls (n := 1) (gs := [.request]) (granted w).rest hst hidle hauto (hlook.mono (by omega))
      fun y _ hnone _ hy => hy.concludes_of_request hnone
  · have hreason : reasonIn w.grant := by
      rw [(granted w).rest]
      exact .inr (.inl (waitingReason_iff.mpr ⟨hauto, hw⟩))
    have hst' : w.grant.store.st = .mounted := by rw [(granted w).rest]; exact hst
    have hidle' : w.grant.eng.st = .idle := by rw [(granted w).rest]; exact hidle
    refine Pends.to_starts (n := 10) (gs := [.request]) (fun k v hk => ?_) (fun y _ _ hy => asks hy)
      (fun y _ hfresh hy => Pends.to_refusedAtOnce (gs := [.request]) lookAhead_grant (by simp) hfresh
        (hy.mono (by simp)) fun z hq hz => hz.ends_quiet closesQuiet_lookAhead hq)
      fun y _ hnone hy => hy.concludes_of_request hnone
    rw [lookForWork_starts hst' hidle' hreason hk] at hlook
    exact hlook.mono (by omega)
  · have hrest : w.grant.lookForWork = (w.grant, []) := by
      refine lookForWork_rest _ (.inr (.inr ?_))
      rw [(granted w).rest]
      exact hauto
    rw [hrest, queued_nil] at hlook
    have hreq := asks (hlook.mono (by omega))
    rw [grant_grant] at hreq
    exact hreq

/-- The request comes first, and then the engine's search (R71, R84, R98; log 9). -/
theorem Pends.to_request_search {w : State} (h : Pends c s stored lookAhead 40 [.request, .look] w) :
    requestsTo w.grant (fun y => concludesIn c s y stored)
      (fun x => looksTo x x (fun y => concludesIn c s y stored) (refusedAtOnce (fun x => endsIn c s x stored))) := by
  have hreq : Pends c s stored lookAhead 39 (queued w.grant.requestSpace.2 [.look]) w.grant.requestSpace.1 :=
    h.handle rfl
  refine Pends.to_requests (n := 21) (gs := [.look]) (hreq.mono (by omega)) (fun y hnone hy => hy.concludes_of_look hnone)
    fun _ hy => ?_
  have hlook := hy.handle (n := 20) rfl
  rw [grant_grant] at hlook
  exact Pends.to_looks (n := 5) (gs := []) rfl (hlook.mono (by omega)) (fun _ _ _ hz => hz.concludes)
    (fun _ _ _ _ hz => hz.concludes)
    (fun _ _ hfresh hz => Pends.to_refusedAtOnce (gs := []) lookAhead_grant (by simp) hfresh hz
      fun _ hq hv => hv.ends_quiet closesQuiet_lookAhead hq)
    fun _ _ _ hz => hz.concludes

/-- A unit has ended, and what R98 leaves to happen pends. -/
theorem Pends.to_unitEnd {y : State} (hidle : y.eng.st = .idle)
    (h : Pends c s stored lookAhead 40 (queued y.afterUnit.2 []) y.afterUnit.1) : unitEndIn c s y stored := by
  refine ⟨fun hst => ?_, fun hst hw => ?_, fun hst hw => ?_⟩
  · rw [afterUnit_of_not_mounted hst, queued_nil] at h
    exact h.ends_quiet closesQuiet_lookAhead (.inl hst)
  · rw [afterUnit_of_none hst hw, queued_apart (by simp [Signal.isApart])] at h
    exact (h.mono (by omega)).concludes_of_look hw
  · rw [afterUnit_of_waiter hst hw] at h
    dsimp only at h ⊢
    split
    · rename_i hfirst
      rw [if_pos hfirst, queued_apart (by simp [Signal.isApart])] at h
      exact Pends.to_search_request (w := { y with freeCount := y.freeCount + 1 }) hst hidle hw h
    · rename_i hfirst
      rw [if_neg hfirst, queued_apart (by simp [Signal.isApart])] at h
      exact Pends.to_request_search (w := { y with freeCount := y.freeCount + 1 }) h

/-! ### The terms of the statements -/

/-- A unit ends in a step (R98). -/
theorem Pends.to_unitEndsIn {u : State} {v : SectorIx} {st : Status} (h : Pends c s stored lookAhead 41 [.unitEnd st false] u) :
    unitEndsIn c s u v st stored :=
  h.to_unitEnds fun _ hy hz => hz.to_unitEnd hy.1

/-- What happens at a unit's end is of its own (R98). -/
theorem afterUnit_apart (y : State) : ∀ g ∈ y.afterUnit.2, g.isApart = true := by
  unfold State.afterUnit
  split
  · split
    · dsimp only
      split <;> simp [Signal.isApart]
    · simp [Signal.isApart]
  · simp

theorem servesNothing_afterUnit {y : State} (h : servesNothing y) : servesNothing y.afterUnit.1 := by
  unfold State.afterUnit
  split
  · split
    · exact h
    · exact h
  · exact h

/-- Some choices of the Log Writer pend, and nothing else. -/
abbrev onlyServes (gs : List Signal) : Prop :=
  gs.length ≤ 4 ∧ ∀ g ∈ gs, g = .serve

theorem onlyServes_nil : onlyServes [] := ⟨by decide, nofun⟩

theorem onlyServes_one : onlyServes [.serve] := ⟨by decide, fun _ h => List.mem_singleton.mp h⟩

theorem onlyServes_two : onlyServes [.serve, .serve] := ⟨by decide, by simp⟩

/-- Choices of the Log Writer come to nothing. -/
theorem Pends.skip_serves {rest : List Signal} {y : State} (hgs : ∀ g ∈ gs, g = .serve)
    (h : Pends c s stored F (n + gs.length) (gs ++ rest) y) (hs : servesNothing y) : Pends c s stored F n rest y := by
  induction gs with
  | nil => exact h
  | cons g gs ih =>
    rw [List.forall_mem_cons] at hgs
    obtain ⟨rfl, hgs⟩ := hgs
    exact ih hgs (Pends.serve_rests (n := n + gs.length) h hs)

/-- A unit has ended, choices of the Log Writer pending that come to nothing. -/
theorem Pends.to_unitEnd_serving {y : State} (hgs : onlyServes gs) (hs : servesNothing y) (hidle : y.eng.st = .idle)
    (h : Pends c s stored lookAhead 45 (queued y.afterUnit.2 gs) y.afterUnit.1) : unitEndIn c s y stored := by
  obtain ⟨hlen, hserve⟩ := hgs
  refine Pends.to_unitEnd hidle ?_
  rw [queued_apart (afterUnit_apart y)] at h ⊢
  exact Pends.skip_serves hserve (h.mono (by omega)) (servesNothing_afterUnit hs)

/-- A unit ends in a step, choices of the Log Writer pending that come to nothing (R98). -/
theorem Pends.to_unitEndsIn_serving {u : State} {v : SectorIx} {st : Status} (hgs : onlyServes gs) (hs : servesNothing u)
    (h : Pends c s stored lookAhead 50 (.unitEnd st false :: gs) u) : unitEndsIn c s u v st stored :=
  Pends.to_unitEnds (n := 49) h fun _ hy hz =>
    (hz.mono (by omega)).to_unitEnd_serving hgs (servesNothing_of_posted hs (unitPosted_of_leaves hy)) hy.1

/-- A record refused in a step, with nothing ready behind it (R77, R82, R98). -/
theorem Pends.to_refusesIn {u : State} {str : Stream} {st : Status} (hgs : onlyServes gs) (hs : servesNothing u)
    (h : Pends c s stored lookAhead 50 (.refused str st :: gs) u) : refusesIn c s str u st stored := by
  refine Pends.to_refuses (n := 47) h (fun _ y hlw hstore hy => ?_) fun y hpost hy =>
    (hy.mono (by omega)).to_unitEnd_serving hgs (servesNothing_of_posted hs hpost) hpost.1
  have hys : servesNothing y := by
    unfold servesNothing State.accepting
    rw [hlw, hstore]
    exact hs
  obtain ⟨hlen, hserve⟩ := hgs
  exact (Pends.skip_serves (n := 0) (rest := []) hserve
    (by rw [List.append_nil]; exact hy.mono (by omega)) hys).concludes

theorem servesNothing_of_idle {y : State} (h : y.lw.idle) : servesNothing y :=
  .inr (.inr (.inr ⟨h.2.2.1, h.2.2.2⟩))

/-- A record offered to the reclaim stream in a step, by an engine at work (R18, R19, R20). -/
theorem Pends.to_offersIn {u : State} {w : LogWriter} {r : Record}
    (h : Pends c s stored lookAhead 51 [.serve] { u with lw := w.readied .reclaim r }) (hst : u.store.st = .mounted)
    (hlow : u.pins.pfailLow = false) (hstop : w.stopped = false) (hbusy : u.eng.st ≠ .idle) :
    offersIn c s u w r stored := by
  refine Pends.to_reclaimOffers (n := 50) (gs := []) h hst hlow hstop (fun y hy hp => ?_) fun y hy hidle hp =>
    Pends.to_refusesIn onlyServes_one (servesNothing_of_idle (by rw [hy]; exact hidle)) hp
  exact hp.ends_quiet closesQuiet_lookAhead (rests_of_busy (by rw [hy.eng]; exact hbusy))

/-- A unit meets a refused sequence number in a step (R10, R100). -/
theorem Pends.to_haltsIn {u : State} {v : SectorIx}
    (h : Pends c s stored lookAhead 10 [.leaveMounted .sequence, .unitEnd .readOnly false] u) : haltsIn c s u v stored :=
  Pends.to_halts (n := 0) (gs := []) (h.mono (by omega)) fun _ hst _ hy =>
    hy.ends_quiet closesQuiet_lookAhead (rests_of_readOnly hst)

/-- The engine enters RETIRING in a step (R41, R95). -/
theorem Pends.to_retiresIn {u : State} {v : SectorIx} {cause : RetireCause} (hgs : gs = [] ∨ gs = [.serve])
    (hw : u.writable)
    (h : Pends c s stored lookAhead 60 (queued (u.beginRetiring v cause).2 gs) (u.beginRetiring v cause).1) :
    retiresIn c s u v cause stored := by
  have hserve : onlyServes gs ∧ onlyServes (.serve :: gs) := by
    rcases hgs with rfl | rfl
    · exact ⟨onlyServes_nil, onlyServes_one⟩
    · exact ⟨onlyServes_one, onlyServes_two⟩
  obtain ⟨⟨hlen, hall⟩, hmore⟩ := hserve
  have quiet {y : State} (hy : Pends c s stored lookAhead 50 gs y) (hs : servesNothing y) (hq : y.engineRests) :
      endsIn c s y stored :=
    (Pends.skip_serves (n := 0) (rest := []) hall (by rw [List.append_nil]; exact hy.mono (by omega)) hs).ends_quiet
      closesQuiet_lookAhead hq
  refine Pends.to_retires (n := 50) hw (h.mono (by omega)) (fun y hst _ hbusy hy => ?_)
    (fun _ _ hfresh hy => Pends.to_refusesIn hmore (servesNothing_of_idle hfresh.1) hy) fun y hst _ hy => ?_
  · exact quiet hy (.inr (or_assoc.mp (.inl hbusy))) (rests_of_busy (by rw [hst]; exact nofun))
  · exact quiet hy (.inl (not_accepting_of_readOnly hst)) (rests_of_readOnly hst)

/-- The unit of R85 is started in a step (R87, R96, R97). -/
theorem Pends.to_startsIn {u : State} {o : Owner}
    (h : ∀ k v, u.unitChoice = some (k, v) →
      Pends c s stored lookAhead 60 (queued (u.startUnit k v o).2 []) (u.startUnit k v o).1) :
    startsIn c s u o stored :=
  Pends.to_starts (n := 50) (gs := []) (fun k v hk => (h k v hk).mono (by omega))
    (fun _ hst _ hy => hy.ends_quiet closesQuiet_lookAhead (rests_of_busy hst))
    (fun _ _ hfresh hy => Pends.to_refusesIn onlyServes_one (servesNothing_of_idle hfresh.1) hy)
    fun _ hst _ hy => hy.ends_quiet closesQuiet_lookAhead (rests_of_readOnly hst)

end Pending

end Sys2Proof.Machine
end

section
/-! SUPPORT. COMMIT, SAVE-SETTINGS and RECLAIM as they are taken, and the offer of a commit's next record. -/

namespace Sys2Proof.Machine

set_option Elab.async false

theorem bytesKept_refl (s : State) (stored : Nat → Prop) : bytesKept s s stored := fun _ _ _ _ => rfl

theorem bytesKept_of_flash {s u : State} (h : u.flash = s.flash) (stored : Nat → Prop) : bytesKept s u stored :=
  fun ln i _ _ => by rw [h]

/-- The head, a background command, is in flight (R151, R154). -/
theorem dequeue_launch_of_heads {s : State} {e : CmdEntry} {rest : List CmdEntry} (h : s.heads e rest) :
    s.dequeue.launch e = { s with cu := s.cu.started e rest } := by
  obtain ⟨hqueue, -⟩ := h
  simp only [State.dequeue, State.launch, CmdUnit.started, hqueue, List.tail_cons]

/-- A background command answered at its take (R153). -/
theorem concludes_of_answer {c : Instr} {s : State} {e : CmdEntry} {rest : List CmdEntry} (h : s.heads e rest) {st : Status}
    (hexec : exec c s = conclude (s.dequeue.answer e st 0 0 0, [])) :
    concludesIn c s { s with cu := s.cu.answered rest (e.done st 0 0 0) } nowhere := by
  rw [dequeue_answer_of_heads h] at hexec
  exact Pends.concludes (queued_nil [] ▸ pends_of_conclude hexec (bytesKept_refl s _))

/-! ### RECLAIM -/

theorem reclaimWork_iff {u : State} : u.reclaimWork = true ↔ ∃ v, (u.sector v).st = .erasePending ∨
    (u.sector v).st = .reclaiming ∨
    ((u.sector v).st = .sealed ∧ 1 ≤ (u.sector v).dead ∧ (u.sector v).mark = false) := by
  unfold State.reclaimWork
  rw [Bool.or_eq_true, Bool.or_eq_true, decide_eq_true_iff, decide_eq_true_iff, ne_eq, sectorsIn_nil, ne_eq, sectorsIn_nil,
    List.any_eq_true, exists_or, exists_or]
  simp only [not_forall, ne_eq, not_not, reclaimable_iff, or_assoc]
  exact or_congr_right (or_congr_right ⟨fun ⟨v, _, hv⟩ => ⟨v, hv⟩, fun ⟨v, hv⟩ => ⟨v, List.mem_finRange v, hv⟩⟩)

/-- A unit can be started only where RECLAIM finds work (R85, R101). -/
theorem reclaimWork_of_unitChoice {u : State} {k : UnitKind} {v : SectorIx} (h : u.unitChoice = some (k, v)) :
    u.reclaimWork = true := by
  rw [reclaimWork_iff]
  by_contra hno
  simp only [not_exists, not_or] at hno
  rw [unitChoice_pass (fun j => (hno j).1) (fun j => (hno j).2.1)] at h
  obtain ⟨j, hj, -⟩ := Option.map_eq_some_iff.mp h
  have hmem := (List.mem_filter.mp (bestOf_mem hj)).2
  rw [Bool.and_eq_true, reclaimable_iff] at hmem
  exact (hno j).2.2 hmem.1

section Take
variable {s : State} {e : CmdEntry}

theorem takeReclaim_busy (hst : s.store.st = .mounted) (h : s.eng.st ≠ .idle) :
    s.takeReclaim e = (s.answer e .busy 0 0 0, []) := by
  unfold State.takeReclaim
  rw [admitWrite_of_mounted hst]
  exact if_pos h

theorem takeReclaim_notFound (hst : s.store.st = .mounted) (hidle : s.eng.st = .idle) (h : s.reclaimWork = false) :
    s.takeReclaim e = (s.answer e .notFound 0 0 0, []) := by
  unfold State.takeReclaim
  rw [admitWrite_of_mounted hst]
  exact (if_neg (not_not.mpr hidle)).trans (if_pos h)

theorem takeReclaim_noSpace (hst : s.store.st = .mounted) (hidle : s.eng.st = .idle) (h : s.reclaimWork = true)
    (hnone : s.unitChoice = none) : s.takeReclaim e = (s.answer e .noSpace 0 0 0, []) := by
  unfold State.takeReclaim
  rw [admitWrite_of_mounted hst]
  refine (if_neg (not_not.mpr hidle)).trans ((if_neg (by rw [h]; exact nofun)).trans ?_)
  rw [hnone]

theorem takeReclaim_starts (hst : s.store.st = .mounted) (hidle : s.eng.st = .idle) {k : UnitKind} {v : SectorIx}
    (hk : s.unitChoice = some (k, v)) : s.takeReclaim e = (s.launch e).startUnit k v (.command e.tag) := by
  unfold State.takeReclaim
  rw [admitWrite_of_mounted hst]
  refine (if_neg (not_not.mpr hidle)).trans ((if_neg (by rw [reclaimWork_of_unitChoice hk]; exact nofun)).trans ?_)
  rw [hk]

end Take

/-- Settles O44, by the checks of R101 and the unit of R85. -/
theorem reclaim : Obligations.Reclaim := by
  intro s e rest h hcode hw
  obtain ⟨hst, -, -⟩ := id hw
  have hexec : exec .reclaim s = conclude (s.dequeue.takeReclaim e) := by
    rw [exec_reclaim, takes_of_heads h (decide_eq_true hcode)]
  refine ⟨fun hbusy => ?_, fun hidle hnone => ?_, fun hidle ⟨v, huseful⟩ hless => ?_, fun hidle => ?_⟩
  · rw [takeReclaim_busy (s := s.dequeue) hst hbusy] at hexec
    exact (concludes_of_answer h hexec).1 (rests_of_busy hbusy)
  · have hwork : s.dequeue.reclaimWork = false := by
      rw [← Bool.not_eq_true, reclaimWork_iff]
      rintro ⟨v, hv⟩
      rcases hv with hv | hv
      · exact (hnone v).1 hv
      · exact (hnone v).2 hv
    rw [takeReclaim_notFound (s := s.dequeue) hst hidle hwork] at hexec
    exact concludes_of_answer h hexec
  · have hwork : s.dequeue.reclaimWork = true := reclaimWork_iff.mpr ⟨v, .inr huseful⟩
    rw [takeReclaim_noSpace (s := s.dequeue) hst hidle hwork (unitChoice_none (u := s.dequeue) hless)] at hexec
    exact concludes_of_answer h hexec
  · refine Pends.to_startsIn fun k v hk => ?_
    rw [takeReclaim_starts (s := s.dequeue) hst hidle hk, dequeue_launch_of_heads h] at hexec
    exact (pends_of_conclude hexec (bytesKept_of_flash
      (inner_startUnit { s with cu := s.cu.started e rest } k v (.command e.tag)).flash _)).mono (by omega)

/-! ### COMMIT -/

section Checks
variable {s : State}

theorem txnState_idle_iff : s.txnState = .idle ↔ s.tm.commit = none ∧ s.tm.staging = [] := by
  unfold State.txnState
  cases s.tm.commit with
  | some f => exact ⟨nofun, fun h => nomatch h.1⟩
  | none =>
    by_cases hl : s.tm.staging = []
    · simp [hl]
    · simp [hl]

theorem writeInFlight_iff : s.writeInFlight = true ↔ ¬ noWrite s := by
  unfold State.writeInFlight
  rw [Bool.or_eq_true, Option.isSome_iff_ne_none, Option.isSome_iff_ne_none, not_and_or]

theorem stagedGuarded_iff : s.tm.staging.any (fun o => s.isGuarded o.key) = true ↔
    ∃ o ∈ s.tm.staging, s.guardMode o.key ≠ .none := by
  rw [List.any_eq_true]
  simp only [isGuarded_iff]

/-- The checks of COMMIT in MOUNTED (R70). -/
theorem commitCheck_of_mounted (hst : s.store.st = .mounted) : s.commitCheck =
    if s.txnState = .idle then some .nothingStaged
    else if s.writeInFlight = true then some .busy
    else if s.tm.staging.any (fun o => s.isGuarded o.key) = true then some .protected_
    else if 1024 < s.dir.length + s.newStaged then some .noDirectorySpace
    else none := by
  unfold State.commitCheck
  rw [admitWrite_of_mounted hst]
  rfl

theorem commitCheck_nothingStaged (hst : s.store.st = .mounted) (hl : s.tm.staging = []) (hc : s.tm.commit = none) :
    s.commitCheck = some .nothingStaged := by
  rw [commitCheck_of_mounted hst, if_pos (txnState_idle_iff.mpr ⟨hc, hl⟩)]

theorem commitCheck_busy (hst : s.store.st = .mounted)
    (h : s.tm.commit ≠ none ∨ (s.tm.staging ≠ [] ∧ s.tm.settings ≠ none)) : s.commitCheck = some .busy := by
  rw [commitCheck_of_mounted hst, if_neg, if_pos]
  · refine writeInFlight_iff.mpr fun hno => ?_
    rcases h with h | h
    · exact h hno.1
    · exact h.2 hno.2
  · rw [txnState_idle_iff]
    rintro ⟨hc, hl⟩
    rcases h with h | h
    · exact h hc
    · exact h.1 hl

/-- The checks behind NOTHING-STAGED and BUSY. -/
theorem commitCheck_of_staged (hst : s.store.st = .mounted) (hl : s.tm.staging ≠ []) (hno : noWrite s) :
    s.commitCheck =
      if s.tm.staging.any (fun o => s.isGuarded o.key) = true then some .protected_
      else if 1024 < s.dir.length + s.newStaged then some .noDirectorySpace
      else none := by
  rw [commitCheck_of_mounted hst, if_neg fun h => hl (txnState_idle_iff.mp h).2,
    if_neg fun h => writeInFlight_iff.mp h hno]

theorem takeCommitCommand_of_some {e : CmdEntry} {st : Status} (h : s.commitCheck = some st) :
    s.takeCommitCommand e = ((s.raiseIf (decide (st = .protected_)) .guardRefusal).answer e st 0 0 0, []) := by
  unfold State.takeCommitCommand
  rw [h]

theorem takeCommitCommand_of_none {e : CmdEntry} (h : s.commitCheck = none) :
    s.takeCommitCommand e = ((s.launch e).setCommit (some s.newCommit)).requestSpace := by
  unfold State.takeCommitCommand
  rw [h]

end Checks

/-- The commit as it is in flight while it waits for space (R70, R71). -/
def waitingCommit (l : List Staged) : CommitFlight :=
  { n := l.length, amount := amountOf l, phase := .waitingSpace, first := 0, txn := 0, nextIx := 0, written := [] }

/-- The state in which a COMMIT that has passed its checks requests its reservation (R70, R71). -/
def commitWaits (s : State) (e : CmdEntry) (rest : List CmdEntry) : State :=
  { s with cu := s.cu.started e rest, tm := { s.tm with commit := some (waitingCommit s.tm.staging) } }

section Commit
variable {s : State} {e : CmdEntry} {rest : List CmdEntry}

theorem exec_commit_of_heads (h : s.heads e rest) (hcode : e.code = 0x23#8) :
    exec .commit s = conclude (s.dequeue.takeCommitCommand e) := by
  rw [exec_commit, takes_of_heads h (decide_eq_true hcode)]

/-- A COMMIT refused at its take. -/
theorem concludes_of_commitCheck (h : s.heads e rest) (hcode : e.code = 0x23#8) {st : Status}
    (hcheck : s.commitCheck = some st) (hst : st ≠ .protected_) :
    concludesIn .commit s { s with cu := s.cu.answered rest (e.done st 0 0 0) } nowhere := by
  have hexec := exec_commit_of_heads h hcode
  rw [takeCommitCommand_of_some (s := s.dequeue) hcheck, decide_eq_false hst] at hexec
  exact concludes_of_answer h hexec

theorem concludes_of_protected {c : Instr} (h : s.heads e rest)
    (hexec : exec c s = conclude ((s.dequeue.raise .guardRefusal).answer e .protected_ 0 0 0, [])) :
    concludesIn c s { s with
      cu := s.cu.answered rest (e.done .protected_ 0 0 0), win := s.win.raised .guardRefusal } nowhere := by
  have hanswer := congrArg (fun x : State => { x with win := s.win.raised .guardRefusal })
    (dequeue_answer_of_heads h .protected_ 0 0 0)
  have hstate : (s.dequeue.raise .guardRefusal).answer e .protected_ 0 0 0 = { s with
      cu := s.cu.answered rest (e.done .protected_ 0 0 0), win := s.win.raised .guardRefusal } := hanswer
  rw [hstate] at hexec
  exact Pends.concludes (queued_nil [] ▸ pends_of_conclude hexec (bytesKept_refl s _))

/-- A COMMIT that passes its checks is in flight and requests its reservation (R70, R71). -/
theorem exec_commit_of_passed (h : s.heads e rest) (hcode : e.code = 0x23#8) (hcheck : s.commitCheck = none) :
    exec .commit s = conclude (commitWaits s e rest).requestSpace := by
  have hexec := exec_commit_of_heads h hcode
  rw [takeCommitCommand_of_none (s := s.dequeue) hcheck, dequeue_launch_of_heads h] at hexec
  exact hexec

/-- The COMMIT in flight is the last of its code when no other is. -/
theorem flies_started {code : Byte} (hcode : e.code = code) (halone : ∀ p ∈ s.cu.inFlight, p.1 ≠ code) :
    (s.cu.started e rest).flies s.cu.inFlight code e.tag [] :=
  ⟨by rw [← hcode]; rfl, halone⟩

end Commit

theorem noCommitRes_eq {w : LogWriter} (h : w.commitRes = none) : { w with commitRes := none } = w := by
  cases w
  simp only at h
  subst h
  rfl

theorem noCommit_eq {t : TxnManager} (h : t.commit = none) : { t with commit := none } = t := by
  cases t
  simp only at h
  subst h
  rfl

theorem noSettings_eq {t : TxnManager} (h : t.settings = none) : { t with settings := none } = t := by
  cases t
  simp only at h
  subst h
  rfl

/-- A commit that ends in the step that took it: its completion is the command's (R72, R77). -/
theorem failWaiter_started {s u : State} {e : CmdEntry} {rest : List CmdEntry} (hcode : e.code = 0x23#8) (hno : noWrite s)
    (halone : ∀ p ∈ s.cu.inFlight, p.1 ≠ 0x23#8) (hcu : u.cu = s.cu.started e rest)
    (hlw : { u.lw with commitRes := none } = s.lw)
    (htm : u.tm = { s.tm with commit := some (waitingCommit s.tm.staging), held := u.tm.held }) (st : Status) :
    u.failWaiter st = { u with
      sectors := u.sectors.map (fun x => { x with mark := false })
      lw := s.lw
      tm := { s.tm with
        held := u.tm.held || decide (st = Status.powerFail ∨ (st = Status.readOnly ∧ u.store.st ≠ .mounted)) }
      cu := s.cu.answered rest (e.done st 0 0 0) } := by
  have hf : u.tm.commit = some (waitingCommit s.tm.staging) := by rw [htm]
  have hset : u.tm.settings = none := by rw [htm]; exact hno.2
  have hfly : u.cu.flies s.cu.inFlight 0x23#8 e.tag [] := by rw [hcu]; exact flies_started hcode halone
  rw [failWaiter_of_commit hf (.inr hset) (spaceWaiter_of_commit hf rfl), commitFail_of_flies hf hfly]
  unfold commitOver
  have htm' (b : Bool) : { u.tm with commit := none, held := b } = { s.tm with held := b } := by
    rw [htm, ← noCommit_eq hno.1]
  have hcu' : u.cu.ended (s.cu.inFlight ++ []) (flightDone 0x23#8 e.tag st (waitingCommit s.tm.staging).first
      (waitingCommit s.tm.staging).written.length (waitingCommit s.tm.staging).txn) =
      s.cu.answered rest (e.done st 0 0 0) := by
    rw [hcu, List.append_nil, ← hcode]
    rfl
  rw [htm', hcu', hlw]

/-- Settles O41, by the checks of R70 in their order, and the request that is not granted. -/
theorem commitRefusedOrWaits : Obligations.CommitRefusedOrWaits := by
  intro s e rest h hcode hst
  refine ⟨fun hl hc => ?_, fun hbusy => ?_, fun hl hno hg => ?_, fun hl hno hg hwide => ?_,
    fun hl hno hg hwide hstop hres hroom => ?_⟩
  · exact concludes_of_commitCheck h hcode (commitCheck_nothingStaged hst hl hc) (by decide)
  · exact concludes_of_commitCheck h hcode (commitCheck_busy hst hbusy) (by decide)
  · have hcheck := commitCheck_of_staged hst hl hno
    rw [if_pos (stagedGuarded_iff.mpr hg)] at hcheck
    have hexec := exec_commit_of_heads h hcode
    rw [takeCommitCommand_of_some (s := s.dequeue) hcheck] at hexec
    exact concludes_of_protected h hexec
  · have hcheck := commitCheck_of_staged hst hl hno
    rw [if_neg (stagedGuarded_iff.not.mpr hg), if_pos hwide] at hcheck
    exact concludes_of_commitCheck h hcode hcheck (by decide)
  · have hcheck := commitCheck_of_staged hst hl hno
    rw [if_neg (stagedGuarded_iff.not.mpr hg), if_neg hwide] at hcheck
    have hexec := exec_commit_of_passed h hcode hcheck
    have hreq : (commitWaits s e rest).requestSpace = (commitWaits s e rest).notGranted := by
      rw [requestSpace_of_commit (f := waitingCommit s.tm.staging) rfl rfl, if_neg]
      rw [commitRoom_iff]
      rintro ⟨-, -, hfree⟩
      exact absurd hfree (not_le.mpr hroom)
    rw [hreq] at hexec
    refine ⟨fun hauto => ?_, fun hauto halone => ?_⟩
    · rw [notGranted_of_wait (u := commitWaits s e rest) hauto] at hexec
      exact Pends.concludes (queued_nil [] ▸ pends_of_conclude hexec (bytesKept_refl s _))
    · rw [notGranted_of_end (u := commitWaits s e rest) hauto,
        failWaiter_started (s := s) (u := commitWaits s e rest) hcode hno halone rfl (noCommitRes_eq hres) rfl] at hexec
      have hheld : ((commitWaits s e rest).tm.held || decide (Status.noSpace = .powerFail ∨
          (Status.noSpace = .readOnly ∧ (commitWaits s e rest).store.st ≠ .mounted))) = s.tm.held :=
        Bool.or_false _
      rw [hheld] at hexec
      refine Pends.ends_quiet closesQuiet_lookAhead (queued_nil [] ▸ pends_of_conclude hexec (bytesKept_refl s _))
        (.inr (.inr (.inl ?_)))
      rw [show State.settings _ = s.settings from rfl, hauto]
      decide

/-- Settles O40, from the granted reservation and what becomes of its block of numbers. -/
theorem commitStarts : Obligations.CommitStarts := by
  intro s e rest op ops l h hcode hw hl hstaging hno hguard hkey hplaces hidle hres hroom
  obtain ⟨hst, hlow, hstop⟩ := id hw
  subst hstaging
  have hne : s.tm.staging ≠ [] := by rw [hl]; exact List.cons_ne_nil _ _
  have hopen : ¬ ∃ o ∈ s.tm.staging, s.guardMode o.key ≠ .none := fun ⟨o, ho, hg⟩ => hg (hguard o ho)
  have hcheck := commitCheck_of_staged hst hne hno
  rw [if_neg (stagedGuarded_iff.not.mpr hopen), if_neg (by omega)] at hcheck
  have hexec := exec_commit_of_passed h hcode hcheck
  have hn : (waitingCommit s.tm.staging).n = ops.length + 1 := by rw [hl]; rfl
  have hacc : (commitWaits s e rest).accepting = true := accepting_of_writable (s := commitWaits s e rest) hw
  have hgrant : (commitWaits s e rest).requestSpace = (commitWaits s e rest).commitGranted (waitingCommit s.tm.staging) := by
    rw [requestSpace_of_commit (f := waitingCommit s.tm.staging) rfl rfl, if_pos]
    exact commitRoom_iff.mpr ⟨hacc, hres, hroom⟩
  rw [hgrant] at hexec
  refine ⟨fun hseq hnothing halone => ?_, fun hseq => ?_⟩
  · rw [commitGranted_of_refused (u := commitWaits s e rest) hn (hl ▸ hseq)] at hexec
    have hleft := Pends.handle (n := 399) (pends_of_conclude hexec (bytesKept_refl s nowhere))
      (leaveForReadOnly_of_refusesNothing (u := State.reserveCommit (commitWaits s e rest) _) hst hnothing .sequence)
    have hheld : ((readOnlyFor (State.reserveCommit (commitWaits s e rest) (waitingCommit s.tm.staging).amount)
        .sequence).tm.held || decide (Status.readOnly = .powerFail ∨ (Status.readOnly = .readOnly ∧ (readOnlyFor
          (State.reserveCommit (commitWaits s e rest) (waitingCommit s.tm.staging).amount) .sequence).store.st ≠
            .mounted))) = true := by simp [readOnlyFor]
    rw [queued_nil, failWaiter_started (s := s) (u := readOnlyFor (State.reserveCommit (commitWaits s e rest) _) .sequence)
      hcode hno halone rfl (noCommitRes_eq hres) rfl, hheld] at hleft
    exact hleft.ends_quiet closesQuiet_lookAhead (rests_of_readOnly rfl)
  · rw [hl] at hseq ⊢
    rw [commitGranted_of_room (u := commitWaits s e rest) hacc hl hn rfl rfl hseq, hl] at hexec
    intro txn r w f u
    have hoffer := Pends.to_offers (n := 399) (gs := []) (ends := fun x => concludesIn .commit s x nowhere) (u := u)
      (str := .commit) (r := r) (w := { w with flag := s.lw.flag })
      (queued_serve [] ▸ pends_of_conclude hexec (bytesKept_refl s nowhere)) hst hlow hstop fun y _ hy => hy.concludes
    exact ⟨fun p => hoffer.1 p hidle, fun k => hoffer.2.1 k hidle⟩

/-! ### SAVE-SETTINGS -/

section Checks
variable {s : State}

/-- The checks of SAVE-SETTINGS in MOUNTED (R142, R168). -/
theorem saveCheck_of_mounted (hst : s.store.st = .mounted) : s.saveCheck =
    if s.writeInFlight = true then some .busy
    else if s.isGuarded Config.settingsKey = true then some .protected_
    else if (s.isNew Config.settingsKey && decide (1024 ≤ s.dir.length)) = true then some .noDirectorySpace
    else none := by
  unfold State.saveCheck
  rw [admitWrite_of_mounted hst]
  rfl

theorem settingsGuarded_iff : s.isGuarded Config.settingsKey = true ↔ s.guardMode 0xFF01#16 ≠ .none := isGuarded_iff

theorem settingsWide_iff : (s.isNew Config.settingsKey && decide (1024 ≤ s.dir.length)) = true ↔
    s.entry 0xFF01#16 = none ∧ 1024 ≤ s.dir.length := by
  rw [Bool.and_eq_true, decide_eq_true_iff]
  exact and_congr_left' Option.isNone_iff_eq_none

theorem takeSaveSettings_of_some {e : CmdEntry} {st : Status} (h : s.saveCheck = some st) :
    s.takeSaveSettings e = ((s.raiseIf (decide (st = .protected_)) .guardRefusal).answer e st 0 0 0, []) := by
  unfold State.takeSaveSettings
  rw [h]

theorem takeSaveSettings_of_none {e : CmdEntry} (h : s.saveCheck = none) : s.takeSaveSettings e =
    ((s.launch e).setSettingsWrite (some
      { phase := .waitingSpace, payload := settingsPayload s.settings s.guards, seq := 0 })).requestSpace := by
  unfold State.takeSaveSettings
  rw [h]

end Checks

/-- The settings write as it is in flight while it waits for space (R82, R168, R169). -/
def waitingSettings (s : State) : SettingsFlight :=
  { phase := .waitingSpace, payload := settingsPayload s.settings s.guards, seq := 0 }

/-- The state in which a SAVE-SETTINGS that has passed its checks requests its reservation (R82, R168). -/
def settingsWaits (s : State) (e : CmdEntry) (rest : List CmdEntry) : State :=
  { s with cu := s.cu.started e rest, tm := { s.tm with settings := some (waitingSettings s) } }

section Save
variable {s : State} {e : CmdEntry} {rest : List CmdEntry}

theorem exec_saveSettings_of_heads (h : s.heads e rest) (hcode : e.code = 0x31#8) :
    exec .saveSettings s = conclude (s.dequeue.takeSaveSettings e) := by
  rw [exec_saveSettings, takes_of_heads h (decide_eq_true hcode)]

theorem concludes_of_saveCheck (h : s.heads e rest) (hcode : e.code = 0x31#8) {st : Status}
    (hcheck : s.saveCheck = some st) (hst : st ≠ .protected_) :
    concludesIn .saveSettings s { s with cu := s.cu.answered rest (e.done st 0 0 0) } nowhere := by
  have hexec := exec_saveSettings_of_heads h hcode
  rw [takeSaveSettings_of_some (s := s.dequeue) hcheck, decide_eq_false hst] at hexec
  exact concludes_of_answer h hexec

theorem exec_saveSettings_of_passed (h : s.heads e rest) (hcode : e.code = 0x31#8) (hcheck : s.saveCheck = none) :
    exec .saveSettings s = conclude (settingsWaits s e rest).requestSpace := by
  have hexec := exec_saveSettings_of_heads h hcode
  rw [takeSaveSettings_of_none (s := s.dequeue) hcheck, dequeue_launch_of_heads h] at hexec
  exact hexec

/-- A settings write that ends in the step that took it: its completion is the command's (R72, R82). -/
theorem failWaiter_saving {u : State} (hcode : e.code = 0x31#8) (hno : noWrite s)
    (halone : ∀ p ∈ s.cu.inFlight, p.1 ≠ 0x31#8) (hcu : u.cu = s.cu.started e rest)
    (hlw : { u.lw with commitRes := none } = s.lw)
    (htm : u.tm = { s.tm with settings := some (waitingSettings s), held := u.tm.held }) (st : Status) :
    u.failWaiter st = { u with
      lw := s.lw
      tm := { s.tm with held := u.tm.held }
      cu := s.cu.answered rest (e.done st 0 0 0) } := by
  have hc : u.tm.commit = none := by rw [htm]; exact hno.1
  have hf : u.tm.settings = some (waitingSettings s) := by rw [htm]
  have hfly : u.cu.flies s.cu.inFlight 0x31#8 e.tag [] := by rw [hcu]; exact flies_started hcode halone
  rw [failWaiter_of_settings hc hf (spaceWaiter_of_settings hf rfl), settingsFail_of_flies hf hfly]
  unfold settingsOver
  have htm' : { u.tm with settings := none } = { s.tm with held := u.tm.held } := by
    rw [htm, ← noSettings_eq hno.2]
  have hcu' : u.cu.ended (s.cu.inFlight ++ []) (flightDone 0x31#8 e.tag st (waitingSettings s).seq 0 0) =
      s.cu.answered rest (e.done st 0 0 0) := by
    rw [hcu, List.append_nil, ← hcode]
    rfl
  rw [htm', hcu', hlw]

end Save

/-- A settings record leaves the mark of its sector as it was (R37). -/
theorem recordPlaced_settings_sector (u : State) (w : LogWriter) (payload : List Byte) (seq : Nat) (p : AppendPoint) :
    (u.recordPlaced w .commit (settingsRecord payload seq) p 0).sector p.sector =
      { u.sector p.sector with dead := (u.sector p.sector).dead + 1 } := by
  have hmark : ((u.sector p.sector).mark ||
      (decide (Stream.commit = .commit) && decide ((settingsRecord payload seq).key ≠ 0xFF01#16))) =
        (u.sector p.sector).mark :=
    Bool.or_false _
  refine (vector_get_set _ _ _ _).trans ((if_pos rfl).trans ?_)
  rw [hmark]

/-- Settles O42, by the checks of R168 in their order and what becomes of the request. -/
theorem saveSettings : Obligations.SaveSettings := by
  intro s e rest h hcode hw
  obtain ⟨hst, hlow, hstop⟩ := id hw
  have hcheck := saveCheck_of_mounted hst
  refine ⟨fun hbusy => ?_, fun hno hg => ?_, fun hno hg hwide => ?_, fun hno hg hwide hres => ?_⟩
  · rw [if_pos (writeInFlight_iff.mpr hbusy)] at hcheck
    exact concludes_of_saveCheck h hcode hcheck (by decide)
  · rw [if_neg fun hx => writeInFlight_iff.mp hx hno, if_pos (settingsGuarded_iff.mpr hg)] at hcheck
    have hexec := exec_saveSettings_of_heads h hcode
    rw [takeSaveSettings_of_some (s := s.dequeue) hcheck] at hexec
    exact concludes_of_protected h hexec
  · rw [if_neg fun hx => writeInFlight_iff.mp hx hno, if_neg (settingsGuarded_iff.not.mpr hg),
      if_pos (settingsWide_iff.mpr hwide)] at hcheck
    exact concludes_of_saveCheck h hcode hcheck (by decide)
  · rw [if_neg fun hx => writeInFlight_iff.mp hx hno, if_neg (settingsGuarded_iff.not.mpr hg),
      if_neg (settingsWide_iff.not.mpr hwide)] at hcheck
    have hexec := exec_saveSettings_of_passed h hcode hcheck
    have hreq := requestSpace_of_settings (u := settingsWaits s e rest) (f := waitingSettings s) hno.1 rfl rfl
    have hacc : (settingsWaits s e rest).accepting = true := accepting_of_writable (s := settingsWaits s e rest) hw
    have granted (hroom : s.heldLines + 37 + 272 ≤ s.freeLines) :
        (settingsWaits s e rest).requestSpace = (settingsWaits s e rest).settingsGranted (waitingSettings s) := by
      have hyes : (settingsWaits s e rest).commitRoom settingsAmount = true := commitRoom_iff.mpr ⟨hacc, hres, hroom⟩
      rw [hreq, if_pos hyes]
    have waited (hroom : s.freeLines < s.heldLines + 37 + 272) :
        (settingsWaits s e rest).requestSpace = (settingsWaits s e rest).notGranted := by
      rw [hreq, if_neg]
      rw [commitRoom_iff]
      rintro ⟨-, -, hfree⟩
      exact absurd hfree (not_le.mpr hroom)
    refine ⟨fun p hroom hseq hidle hp hfit => ?_, fun hroom hseq hnothing halone => ?_, fun hroom hauto => ?_,
      fun hroom hauto halone => ?_⟩
    · rw [granted hroom, settingsGranted_of_room (u := settingsWaits s e rest) hacc hseq] at hexec
      intro f w u
      have hoffer := Pends.to_offers (n := 399) (gs := []) (ends := fun x => concludesIn .saveSettings s x nowhere)
        (u := { s with cu := s.cu.started e rest, tm := { s.tm with settings := some f } }) (str := .commit)
        (r := settingsRecord (settingsPayload s.settings s.guards) s.lw.seqCtr) (w := { w with flag := s.lw.flag })
        (queued_serve [] ▸ pends_of_conclude hexec (bytesKept_refl s nowhere)) hst hlow hstop fun y _ hy => hy.concludes
      exact ⟨recordPlaced_settings_sector _ _ _ _ _, hoffer.1 p hidle hp (by rw [lines_settingsRecord]; exact hfit)⟩
    · rw [granted hroom, settingsGranted_of_refused (u := settingsWaits s e rest) hseq] at hexec
      have hleft := Pends.handle (n := 399) (pends_of_conclude hexec (bytesKept_refl s nowhere))
        (leaveForReadOnly_of_refusesNothing (u := State.reserveCommit (settingsWaits s e rest) 37) hst hnothing .sequence)
      rw [queued_nil, failWaiter_saving (s := s) (u := readOnlyFor (State.reserveCommit (settingsWaits s e rest) 37)
        .sequence) hcode hno halone rfl (noCommitRes_eq hres) rfl] at hleft
      exact hleft.ends_quiet closesQuiet_lookAhead (rests_of_readOnly rfl)
    · rw [waited hroom, notGranted_of_wait (u := settingsWaits s e rest) hauto] at hexec
      exact Pends.concludes (queued_nil [] ▸ pends_of_conclude hexec (bytesKept_refl s _))
    · rw [waited hroom, notGranted_of_end (u := settingsWaits s e rest) hauto,
        failWaiter_saving (s := s) (u := settingsWaits s e rest) hcode hno halone rfl (noCommitRes_eq hres) rfl] at hexec
      refine Pends.ends_quiet closesQuiet_lookAhead (queued_nil [] ▸ pends_of_conclude hexec (bytesKept_refl s _))
        (.inr (.inr (.inl ?_)))
      rw [show State.settings _ = s.settings from rfl, hauto]
      decide

/-! ### The offer of a commit's next record -/

theorem offerDue_of {s : State} {f : CommitFlight} (hf : s.tm.commit = some f) (hphase : f.phase = .writing)
    (hwritten : f.written.length = f.nextIx) (hix : f.nextIx < recordsOf f.n) : s.offerDue = some f := by
  unfold State.offerDue
  rw [hf]
  exact if_pos ⟨hphase, hwritten, hix⟩

/-- The records of a commit of several operations: one for each in list order, and the COMMIT record (R74). -/
theorem commitRecordAt_of_several {s : State} {f : CommitFlight} {r : Record} (hn : 2 ≤ f.n)
    (hlen : f.n = s.tm.staging.length) (hix : f.nextIx ≤ f.n)
    (hop : ∀ op, s.tm.staging[f.nextIx]? = some op → r = op.record false f.txn (f.first + f.nextIx))
    (hlast : f.nextIx = f.n → r = commitRecord f.n f.txn (f.first + f.n)) : s.commitRecordAt f f.nextIx = r := by
  unfold State.commitRecordAt
  split
  · rename_i op hget
    rw [if_neg (by omega), hop op hget]
  · rename_i hget
    refine (hlast ?_).symm
    rw [List.getElem?_eq_none_iff] at hget
    omega

theorem exec_commitRecordOffer {s : State} {f : CommitFlight} (h : s.offerDue = some f) :
    exec .commitRecordOffer s = conclude (s.offerCommit f) := by
  change execCommitRecordOffer s = _
  unfold execCommitRecordOffer
  rw [h]

/-- Settles O43: the offer to the idle Log Writer, and its refusal once the Log Writer accepts nothing. -/
theorem commitRecordOffer : Obligations.CommitRecordOffer := by
  intro s f r hf hphase hn hlen hwritten hix hop hlast _
  have hdue := offerDue_of hf hphase hwritten (by unfold recordsOf; rw [if_neg (by omega)]; omega)
  have hexec := exec_commitRecordOffer hdue
  have hrec := commitRecordAt_of_several hn hlen hix hop hlast
  refine ⟨fun p hw hidle hp hfit => ?_, fun before tag after st hhalt hfly => ?_⟩
  · obtain ⟨hst, hlow, hstop⟩ := id hw
    rw [offerCommit_of_accepting (accepting_of_writable hw), hrec] at hexec
    intro w u
    exact (Pends.to_offers (n := 399) (gs := []) (ends := fun x => concludesIn .commitRecordOffer s x nowhere)
      (u := u) (str := .commit) (r := r) (w := s.lw)
      (queued_serve [] ▸ pends_of_conclude hexec (bytesKept_refl s nowhere)) hst hlow hstop
      fun y _ hy => hy.concludes).1 p hidle hp hfit
  · have hstatus : s.accepting = false ∧ s.writerStatus = st ∧ s.store.st ≠ .mounted ∧
        (s.tm.held || decide (st = .powerFail ∨ (st = .readOnly ∧ s.store.st ≠ .mounted))) = true := by
      unfold State.accepting State.writerStatus
      rcases hhalt with ⟨hst, hstop, rfl⟩ | ⟨hst, hstop, rfl⟩ <;> rw [hst, hstop] <;> simp
    obtain ⟨hacc, hwst, hst, hheld⟩ := hstatus
    have hoffer : s.offerCommit f =
        (s.setCommit (some { f with nextIx := f.nextIx + 1 }), [.refused .commit s.writerStatus]) :=
      offer_of_not_accepting (s := s.setCommit (some { f with nextIx := f.nextIx + 1 })) hacc _ _
    rw [hoffer, hwst] at hexec
    have hrefused : (s.setCommit (some { f with nextIx := f.nextIx + 1 })).commitRefused st =
        (commitOver (s.setCommit (some { f with nextIx := f.nextIx + 1 })) st { f with nextIx := f.nextIx + 1 } tag
          (before ++ after), []) := by
      unfold State.commitRefused
      rw [← commitFail_of_flies (u := s.setCommit (some { f with nextIx := f.nextIx + 1 })) rfl hfly]
      rfl
    have hleft := Pends.handle (n := 399) (pends_of_conclude hexec (bytesKept_refl s nowhere)) hrefused
    rw [queued_nil] at hleft
    unfold commitOver at hleft
    rw [show (s.setCommit (some { f with nextIx := f.nextIx + 1 })).tm.held = s.tm.held from rfl,
      show (s.setCommit (some { f with nextIx := f.nextIx + 1 })).store = s.store from rfl, hheld] at hleft
    exact hleft.ends_quiet closesQuiet_lookAhead (.inl hst)

end Sys2Proof.Machine
end

section
/-! SUPPORT. SETTING: what a changed setting sets going, and the completion behind it (R165–R167). -/

namespace Sys2Proof.Machine

set_option Elab.async false

/-! ### The Command Unit stands aside -/

theorem start_setCu (y : State) (q : CmdUnit) (x : SlotId) (n : Nat) :
    State.start { y with cu := q } x n = { y.start x n with cu := q } := by
  unfold State.start
  dsimp only
  split <;> rfl

/-- A grant neither reads nor changes the Command Unit. -/
theorem grant_setCu (y : State) (q : CmdUnit) : State.grant { y with cu := q } = { y.grant with cu := q } := by
  unfold State.grant
  dsimp only
  split
  · rfl
  · split
    · split
      · unfold State.grantSuspended
        simp only [start_setCu, apply_ite (fun u : State => { u with cu := q })]
        rfl
      · rfl
    · simp only [start_setCu, apply_ite (fun u : State => { u with cu := q })]
      rfl

/-- A completion that joins the queue before a grant or behind it. -/
theorem grant_post (y : State) (d : Completion) : (y.post d).grant = y.grant.post d := by
  have hcu : y.grant.cu = y.cu := by rw [(granted y).rest]
  refine (grant_setCu y _).trans ?_
  unfold State.post
  rw [hcu]

/-- A completion is posted behind the happenings of a step, and the step's look follows (R166). -/
def thenPosts (d : Completion) (t : State) : Host.Outcome State Fault Refusal := lookAhead (t.post d)

theorem mindsNoGrant_thenPosts (d : Completion) : mindsNoGrant (thenPosts d) := fun y => by
  unfold thenPosts
  rw [← grant_post, lookAhead_grant]

theorem Pends.concludes_posted {c : Instr} {s y : State} {stored : Nat → Prop} {d : Completion} {n : Nat}
    (h : Pends c s stored (thenPosts d) n [] y) : concludesIn c s (y.post d) stored := by
  refine Pends.concludes (n := n) ⟨⟨n, Nat.le_refl _, ?_⟩, h.bytes⟩
  rw [h.exec_eq, drainThen, drain_nil]
  rfl

/-! ### What happenings leave -/

theorem tells_grant (s : State) : Tells s s.grant := by
  have hrest := (granted s).rest
  refine .same ?_ ?_ <;> rw [hrest]

theorem tells_handle (s : State) (g : Signal) : Tells s (s.handle g).1 := by
  cases hg : g.isApart with
  | false => exact (sound_handle_of_not_apart s hg).tells
  | true =>
    cases g with
    | request => exact (tells_grant s).trans (sound_requestSpace _).tells
    | look => exact (tells_grant s).trans (sound_lookForWork _).tells
    | _ => exact nomatch hg

theorem tells_drain {n : Nat} {gs : List Signal} {s t : State} (h : drain n gs s = some t) : Tells s t := by
  induction n generalizing gs s with
  | zero =>
    cases gs with
    | nil => exact Option.some.inj h ▸ .same
    | cons g gs => exact nomatch h
  | succ n ih =>
    cases gs with
    | nil => exact Option.some.inj h ▸ .same
    | cons g gs => exact (tells_handle s g).trans (ih h)

theorem tells_conclude {a : Answer} {t : State} (h : conclude a = .next t) : Tells a.1 t := by
  unfold conclude at h
  split at h
  · rename_i v hv
    obtain ⟨u, hu, hlook⟩ := Option.bind_eq_some_iff.mp hv
    cases h
    exact ((tells_drain hu).trans (tells_drain hlook)).trans (tells_grant v)
  · exact nomatch h

/-! ### The changed setting -/

section Fits
variable {id v : Nat}

theorem write_of_fits (w : Settings) (h : settingFits id v) : w.write id v = settingWritten w id v := by
  rcases h with ⟨rfl, -⟩ | ⟨rfl, -⟩ | ⟨rfl, -⟩ <;> rfl

theorem named_of_fits (w : Settings) (h : settingFits id v) :
    ∃ lo hi, w.named id = some (settingValue w id, lo, hi) ∧ lo ≤ v ∧ v ≤ hi := by
  rcases h with ⟨rfl, hlo, hhi⟩ | ⟨rfl, hhi⟩ | ⟨rfl, hhi⟩
  · exact ⟨2, 8, rfl, hlo, hhi⟩
  · exact ⟨0, 1, rfl, Nat.zero_le _, hhi⟩
  · exact ⟨0, 24, rfl, Nat.zero_le _, hhi⟩

theorem fits_of_named {w : Settings} {before lo hi : Nat} (h : w.named id = some (before, lo, hi)) (hlo : lo ≤ v)
    (hhi : v ≤ hi) : settingFits id v := by
  unfold Settings.named at h
  split at h
  · cases h
    exact .inl ⟨rfl, hlo, hhi⟩
  · cases h
    exact .inr (.inl ⟨rfl, hhi⟩)
  · cases h
    exact .inr (.inr ⟨rfl, hhi⟩)
  · exact nomatch h

/-- AUTO-RECLAIM goes from 1 to 0 (R167). -/
abbrev unsetsIn (w : Settings) (id v : Nat) : Prop :=
  id = 2 ∧ v = 0 ∧ w.autoReclaim = 1

theorem unsets_iff {w : Settings} (h : settingFits id v) :
    w.autoReclaim = 1 ∧ (w.write id v).autoReclaim = 0 ↔ unsetsIn w id v := by
  rcases h with ⟨rfl, -⟩ | ⟨rfl, -⟩ | ⟨rfl, -⟩ <;> simp [Settings.write, unsetsIn] <;> omega

end Fits

section Change
variable {s : State} {id v : Nat}

theorem changeSetting_of_unsets (hfits : settingFits id v) (h : unsetsIn s.settings id v) :
    s.changeSetting id v = State.requestSpace { s with settings := settingWritten s.settings id v } := by
  have hyes := (unsets_iff hfits).mpr h
  rw [← write_of_fits _ hfits]
  exact if_pos hyes

theorem changeSetting_of_limit (hfits : settingFits 3 v) :
    s.changeSetting 3 v = ({ s with settings := settingWritten s.settings 3 v }, []) := by
  have hno : ¬ unsetsIn s.settings 3 v := fun h => absurd h.1 (by decide)
  rw [← write_of_fits _ hfits]
  exact (if_neg ((unsets_iff hfits).not.mpr hno)).trans (if_pos rfl)

theorem changeSetting_of_look (hfits : settingFits id v) (h : ¬ unsetsIn s.settings id v) (hid : id ≠ 3) :
    s.changeSetting id v = State.lookForWork { s with settings := settingWritten s.settings id v } := by
  rw [← write_of_fits _ hfits]
  exact (if_neg ((unsets_iff hfits).not.mpr h)).trans (if_neg hid)

end Change

/-! ### SETTING -/

/-- The state in which a changed setting sets going what it does (R166, R167). -/
def settingChanged (s : State) (rest : List CmdEntry) (id v : Nat) : State :=
  { s with settings := settingWritten s.settings id v, cu := { s.cu with queue := rest } }

section Setting
variable {s : State} {e : CmdEntry} {rest : List CmdEntry}

theorem exec_setting_of_heads (h : s.heads e rest) (hcode : e.code = 0x30#8) :
    exec .setting s = s.dequeue.takeSetting e := by
  rw [exec_setting, takes_of_heads h (decide_eq_true hcode)]

theorem dequeue_of_heads (h : s.heads e rest) : s.dequeue = { s with cu := { s.cu with queue := rest } } := by
  obtain ⟨hqueue, -⟩ := h
  unfold State.dequeue
  rw [hqueue]
  rfl

theorem exec_setting_of_fits (h : s.heads e rest) (hcode : e.code = 0x30#8) (hst : s.store.st ≠ .formatting)
    (hfits : settingFits e.arg0.toNat e.arg1.toNat) : exec .setting s =
      (settle (s.dequeue.changeSetting e.arg0.toNat e.arg1.toNat)).elim (.fault .unsettled)
        (thenPosts (e.done .ok e.arg0.toNat e.arg1.toNat (settingValue s.settings e.arg0.toNat))) := by
  obtain ⟨lo, hi, hnamed, hrange⟩ := named_of_fits s.settings hfits
  rw [exec_setting_of_heads h hcode]
  unfold State.takeSetting
  rw [show s.dequeue.admitLocal = none from admitLocal_of_not_formatting hst]
  dsimp only
  rw [show s.dequeue.settings.named e.arg0.toNat = _ from hnamed]
  dsimp only
  rw [if_pos hrange]
  cases settle (s.dequeue.changeSetting e.arg0.toNat e.arg1.toNat) <;> rfl

theorem exec_setting_of_refused (h : s.heads e rest) (hcode : e.code = 0x30#8) (hst : s.store.st ≠ .formatting)
    (hno : ¬ settingFits e.arg0.toNat e.arg1.toNat) :
    exec .setting s = conclude ({ s with cu := s.cu.answered rest (e.done .badArgument 0 0 0) }, []) := by
  rw [exec_setting_of_heads h hcode, ← dequeue_answer_of_heads h]
  unfold State.takeSetting
  rw [show s.dequeue.admitLocal = none from admitLocal_of_not_formatting hst]
  dsimp only
  split
  · rfl
  · rename_i hnamed
    rw [if_neg fun hrange => hno (fits_of_named hnamed hrange.1 hrange.2)]

/-- What SETTING sets going pends, its completion behind it. -/
theorem pends_of_setting (h : s.heads e rest) (hcode : e.code = 0x30#8) (hst : s.store.st ≠ .formatting)
    (hfits : settingFits e.arg0.toNat e.arg1.toNat) {a : Answer}
    (ha : s.dequeue.changeSetting e.arg0.toNat e.arg1.toNat = a) (hb : bytesKept s a.1 nowhere) :
    Pends .setting s nowhere (thenPosts (e.done .ok e.arg0.toNat e.arg1.toNat (settingValue s.settings e.arg0.toNat)))
      400 (queued a.2 []) a.1 := by
  refine ⟨⟨400, Nat.le_refl _, ?_⟩, hb⟩
  rw [exec_setting_of_fits h hcode hst hfits, ha]
  rfl

/-- The completion of SETTING (R166). -/
abbrev settingPosted (s : State) (e : CmdEntry) : Completion :=
  e.done .ok e.arg0.toNat e.arg1.toNat (settingValue s.settings e.arg0.toNat)

theorem bytesKept_changeSetting (s : State) (id v : Nat) : bytesKept s (s.dequeue.changeSetting id v).1 nowhere :=
  bytesKept_of_flash (s := s) (inner_changed s.dequeue id v).flash nowhere

theorem pends_of_change (h : s.heads e rest) (hcode : e.code = 0x30#8) (hst : s.store.st ≠ .formatting)
    (hfits : settingFits e.arg0.toNat e.arg1.toNat) {a : Answer}
    (ha : s.dequeue.changeSetting e.arg0.toNat e.arg1.toNat = a) :
    Pends .setting s nowhere (thenPosts (settingPosted s e)) 400 (queued a.2 []) a.1 :=
  pends_of_setting h hcode hst hfits ha (ha ▸ bytesKept_changeSetting s _ _)

theorem dequeue_changed (h : s.heads e rest) (id v : Nat) :
    { s.dequeue with settings := settingWritten s.dequeue.settings id v } = settingChanged s rest id v := by
  rw [dequeue_of_heads h]
  rfl

/-- The change sets nothing going, or what it does comes to nothing (R167). -/
theorem pends_of_quiet_change (h : s.heads e rest) (hcode : e.code = 0x30#8) (hst : s.store.st ≠ .formatting)
    (hfits : settingFits e.arg0.toNat e.arg1.toNat)
    (hunset : unsetsIn s.settings e.arg0.toNat e.arg1.toNat → s.spaceWaiter = false)
    (hquiet : e.arg0.toNat = 3 ∨ (settingChanged s rest e.arg0.toNat e.arg1.toNat).engineRests) :
    Pends .setting s nowhere (thenPosts (settingPosted s e)) 400 []
      (settingChanged s rest e.arg0.toNat e.arg1.toNat) := by
  refine pends_of_change h hcode hst hfits (a := (settingChanged s rest _ _, [])) ?_
  rw [← dequeue_changed h] at hquiet ⊢
  by_cases hu : unsetsIn s.settings e.arg0.toNat e.arg1.toNat
  · rw [changeSetting_of_unsets (s := s.dequeue) hfits hu]
    exact requestSpace_of_none (hunset hu)
  · by_cases hid : e.arg0.toNat = 3
    · rw [hid] at hfits ⊢
      exact changeSetting_of_limit hfits
    · rw [changeSetting_of_look (s := s.dequeue) hfits hu hid]
      exact lookForWork_quiet (hquiet.resolve_left hid)

/-- What SETTING leaves of the settings and of the completions that wait (R166). -/
theorem setting_leaves (h : s.heads e rest) (hcode : e.code = 0x30#8) (hst : s.store.st ≠ .formatting)
    (hfits : settingFits e.arg0.toNat e.arg1.toNat) {t : State} (ht : exec .setting s = .next t) :
    t.settings = settingWritten s.settings e.arg0.toNat e.arg1.toNat ∧
      ∃ ahead behind, t.cu.completions = s.cu.completions ++ ahead ++ settingPosted s e :: behind ∧
        (e.arg0.toNat = 3 → ahead = []) ∧ (e.arg0.toNat = 2 → e.arg1.toNat = 0 → behind = []) := by
  rw [exec_setting_of_fits h hcode hst hfits] at ht
  have hchange := (sound_changeSetting s.dequeue e.arg0.toNat e.arg1.toNat).tells
  rw [write_of_fits _ hfits] at hchange
  cases hset : settle (s.dequeue.changeSetting e.arg0.toNat e.arg1.toNat) with
  | none =>
    rw [hset] at ht
    exact nomatch ht
  | some x =>
    rw [hset, Option.elim_some] at ht
    obtain ⟨hxset, ahead, hahead⟩ := hchange.trans (tells_drain hset)
    have hxset' : (x.post (settingPosted s e)).settings = settingWritten s.settings e.arg0.toNat e.arg1.toNat := hxset
    obtain ⟨htset, behind, hbehind⟩ := tells_conclude ht
    refine ⟨htset.trans hxset', ahead, behind, ?_, fun hid => ?_, fun hid hv => ?_⟩
    · have hposted : (x.post (settingPosted s e)).cu.completions = x.cu.completions ++ [settingPosted s e] := rfl
      have hold : s.dequeue.cu.completions = s.cu.completions := rfl
      rw [← hbehind, hposted, ← hahead, hold, List.append_assoc, List.singleton_append]
    · rw [hid] at hset hfits hahead
      rw [changeSetting_of_limit hfits] at hset
      rw [settle_nil] at hset
      cases hset
      exact List.append_right_eq_self.mp hahead
    · have hrests : (x.post (settingPosted s e)).engineRests := by
        refine .inr (.inr (.inl ?_))
        rw [hxset', hid, hv]
        exact Nat.zero_ne_one
      rw [show thenPosts _ x = lookAhead (x.post (settingPosted s e)) from rfl, lookAhead, conclude_quiet hrests] at ht
      cases ht
      rw [show (x.post (settingPosted s e)).grant.cu = (x.post (settingPosted s e)).cu by rw [(granted _).rest]]
        at hbehind
      exact List.append_right_eq_self.mp hbehind

end Setting

/-- Settles O34: what the change sets going pends before the completion, and the step's own look follows it. -/
theorem setting : Obligations.Setting := by
  intro s e rest id v h hcode hst hid hv
  subst hid hv
  refine ⟨fun hfits hquiet => ?_, fun hfits hunset => ?_, fun hfits t ht => setting_leaves h hcode hst hfits ht,
    fun f before tag after hunset hf hphase hset hroom hfly => ?_, fun hno => ?_⟩
  · have hunset : unsetsIn s.settings e.arg0.toNat e.arg1.toNat → s.spaceWaiter = false := fun hu =>
      hquiet.resolve_left (not_not_intro hu)
    refine ⟨fun hrests => ?_, fun hid => ?_, fun hid => ?_⟩
    · exact (pends_of_quiet_change h hcode hst hfits hunset (.inr hrests)).concludes_posted.1 hrests
    · intro hmounted hidle hauto
      have hno : ¬ unsetsIn s.settings e.arg0.toNat e.arg1.toNat := fun hu => by
        obtain ⟨hid, hv, -⟩ := hu
        rw [hid, hv] at hauto
        exact nomatch hauto
      have hpend := pends_of_change h hcode hst hfits (changeSetting_of_look (s := s.dequeue) hfits hno hid)
      rw [dequeue_changed h] at hpend
      refine Pends.to_looks (n := 5) (gs := []) rfl (hpend.mono (by omega)) (fun _ _ _ hy => hy.concludes_posted)
        (fun _ _ _ _ hy => hy.concludes_posted) (fun _ _ hfresh hy => ?_) (fun _ _ _ hy => hy.concludes_posted)
        hmounted hidle hauto
      exact Pends.to_refusedAtOnce (gs := []) (mindsNoGrant_thenPosts _) (by simp) hfresh hy
        fun _ _ hz => hz.concludes_posted
    · exact (pends_of_quiet_change h hcode hst hfits hunset (.inl hid)).concludes_posted.2
  · have hpend := pends_of_change h hcode hst hfits (changeSetting_of_unsets (s := s.dequeue) hfits hunset)
    rw [dequeue_changed h] at hpend
    exact Pends.to_requests (n := 5) (gs := []) (hpend.mono (by omega)) (fun _ _ hy => hy.concludes_posted)
      fun _ hy => hy.concludes_posted
  · obtain ⟨hid, hv, hauto⟩ := id hunset
    have hfits : settingFits e.arg0.toNat e.arg1.toNat := .inr (.inl ⟨hid, by omega⟩)
    have hzero : (settingChanged s rest e.arg0.toNat e.arg1.toNat).settings.autoReclaim = 0 := by
      rw [hid, hv]
      rfl
    have hpend := pends_of_change h hcode hst hfits (changeSetting_of_unsets (s := s.dequeue) hfits hunset)
    rw [dequeue_changed h, requestSpace_of_commit (u := settingChanged s rest _ _) hf hphase, if_neg,
      notGranted_of_end hzero, failWaiter_of_commit (u := settingChanged s rest _ _) hf (.inr hset)
        (spaceWaiter_of_commit hf hphase), commitFail_of_flies (u := settingChanged s rest _ _) hf hfly] at hpend
    · refine hpend.concludes_posted.1 (.inr (.inr (.inl ?_)))
      exact fun hone => absurd (hzero.symm.trans hone) (by decide)
    · rw [commitRoom_iff]
      rintro ⟨-, -, hfree⟩
      exact absurd hfree (not_le.mpr hroom)
  · refine Pends.concludes (n := 400) (queued_nil [] ▸ pends_of_conclude
      (exec_setting_of_refused h hcode hst hno) (bytesKept_refl s _))

end Sys2Proof.Machine
end

section
/-! SUPPORT. The end of a program of the Log Writer: what it leaves of the array, the next line of the record in
progress, its refusal, and the early opening (R19, R24–R26, R103). -/

namespace Sys2Proof.Machine

set_option Elab.async false

/-! ### Programs that end -/

theorem programmed_release (s : State) (x : SlotId) (sec : SectorIx) (line : Nat) (data : List Byte) (v : Verify) :
    (s.programmed sec line data v).release x = programOver s x sec line data v := by
  cases v <;> rfl

/-- A passed program stores to its line alone (R103). -/
theorem bytesKept_endProgram {s u : State} {sec : SectorIx} {line : Nat} {data : List Byte}
    (h : u.flash = s.flash.endProgram sec line data) : bytesKept s u fun ln => ln = lineNo sec line := by
  intro ln i hi hne
  rw [h]
  exact Flash.endProgram_byte_other _ _ _ _ _ _ hi hne

/-- A failed program stores to no line (R103). -/
theorem bytesKept_failProgram {s u : State} {sec : SectorIx} {line : Nat} (stored : Nat → Prop)
    (h : u.flash = s.flash.failProgram sec line) : bytesKept s u stored := by
  intro ln i _ _
  rw [h]
  rfl

/-- The line of a passed program holds its bytes (R103). -/
theorem holdsLine_endProgram {s u : State} {sec : SectorIx} {line : Nat} {data : List Byte} (hlen : data.length = 16)
    (hwf : s.flash.wf = true) (h : u.flash = s.flash.endProgram sec line data) : holdsLine u sec line data := by
  intro i hi
  rw [h, Flash.endProgram_byte _ _ _ _ i hi hlen hwf]
  unfold byteAt
  simp [hlen, hi]

theorem holdsLine_grant {u : State} {sec : SectorIx} {line : Nat} {data : List Byte} (h : holdsLine u sec line data) :
    holdsLine u.grant sec line data := by
  intro i hi
  rw [grant_byte]
  exact h i hi

section Ends
variable {s : State} {sec : SectorIx} {line : Nat} {data : List Byte}

theorem exec_lineProgramEnd (h : performs s .l (.program sec line data)) (hline : 2 ≤ line) (v : Verify) :
    exec (.lineProgramEnd v) s = conclude ((programOver s .l sec line data v).lineEnded v) := by
  obtain ⟨hbusy, hslot⟩ := h
  change execLineProgramEnd v s = _
  unfold execLineProgramEnd
  rw [inHand_of hbusy hslot]
  dsimp only
  rw [if_pos (show Config.firstRecordLine ≤ line from hline), programmed_release]

theorem exec_openStampProgramEnd (h : performs s .l (.program sec 1 data)) (v : Verify) :
    exec (.openStampProgramEnd v) s = conclude ((programOver s .l sec 1 data v).openingEnded v) := by
  obtain ⟨hbusy, hslot⟩ := h
  change execOpenStampProgramEnd v s = _
  unfold execOpenStampProgramEnd
  rw [inHand_of hbusy hslot]
  dsimp only
  rw [if_pos rfl, programmed_release]

end Ends

/-! ### The record in progress -/

section Record
variable {u : State} {cur : InProgress} {loc : Loc}

theorem lineEnded_passed (hcur : u.lw.current = some cur) (hplace : cur.place = some loc) :
    u.lineEnded .passed = u.linePassed cur loc := by
  unfold State.lineEnded
  rw [hcur]
  dsimp only
  rw [hplace]

theorem lineEnded_failed (hcur : u.lw.current = some cur) (hplace : cur.place = some loc) :
    u.lineEnded .failed = u.lineFailed cur := by
  unfold State.lineEnded
  rw [hcur]
  dsimp only
  rw [hplace]

/-- The record's last line: it is reported written (R19). -/
theorem linePassed_last (h : cur.record.lines ≤ cur.done + 1) :
    u.linePassed cur loc = (u.dropCurrent, [.written cur.stream cur.record loc, .serve]) := if_pos h

theorem linePassed_next (h : cur.done + 1 < cur.record.lines) (hst : ¬ (u.store.st = .readOnly ∧ u.lw.stopped = false)) :
    u.linePassed cur loc = u.requestLine { cur with done := cur.done + 1 } loc := by
  have hno : ¬ (u.store.st = .readOnly ∧ (!u.lw.stopped) = true) := fun ⟨hro, hs⟩ => hst ⟨hro, by simpa using hs⟩
  exact (if_neg (not_le.mpr h)).trans (if_neg hno)

theorem refuseCurrent_of_some (hcur : u.lw.current = some cur) (st : Status) :
    u.refuseCurrent st = (u.dropCurrent, [.refused cur.stream st, .serve]) := by
  unfold State.refuseCurrent
  rw [hcur]

theorem linePassed_readOnly (h : cur.done + 1 < cur.record.lines) (hcur : u.lw.current = some cur)
    (hst : u.store.st = .readOnly) (hs : u.lw.stopped = false) :
    u.linePassed cur loc = (u.dropCurrent, [.refused cur.stream .readOnly, .serve]) := by
  have hyes : u.store.st = .readOnly ∧ (!u.lw.stopped) = true := ⟨hst, by rw [hs]; rfl⟩
  exact ((if_neg (not_le.mpr h)).trans (if_pos hyes)).trans (refuseCurrent_of_some hcur _)

theorem place_of_barred {x : SlotId} {op : ArrayOp} {st : Status} (hop : op.isWrite = true) (h : u.writeBar = some st) :
    u.place x op = (u, some st) := by
  unfold State.place
  rw [hop, h]
  rfl

theorem writeBar_of_powerHold (h : u.store.st = .powerHold) : u.writeBar = some .powerFail := by
  unfold State.writeBar
  rw [h]
  exact if_pos (Bool.or_true _)

/-- In POWER-HOLD the next line is asked for, counted, and refused (R26, R112; log 13). -/
theorem requestLine_of_powerHold (h : u.store.st = .powerHold) (cur : InProgress) (loc : Loc) : u.requestLine cur loc =
    ({ u.modSector loc.sector SectorEntry.addDead with
      lw := { u.lw with
        current := none, point := u.lw.point.map (fun p => { p with line := p.line + 1 })
        commitRes := oneCharged cur.stream .commit u.lw.commitRes
        reclaimRes := oneCharged cur.stream .reclaim u.lw.reclaimRes } }, [.refused cur.stream .powerFail, .serve]) := by
  unfold State.requestLine
  dsimp only
  rw [place_of_barred (st := .powerFail)]
  · simp only [charge_one, State.modSector_lw]
    rfl
  · rfl
  · exact writeBar_of_powerHold h

end Record

/-! ### Failures -/

section Failure
variable {u : State} {cur : InProgress}

/-- The Log Writer accepts nothing, and refuses with the status (R17, R26). -/
theorem not_accepting_of_halted {st : Status} (h : halted u st) : u.accepting = false ∧ u.writerStatus = st := by
  unfold State.accepting State.writerStatus
  rcases h with ⟨hst, hstop, rfl⟩ | ⟨hst, hstop, rfl⟩ <;> rw [hst, hstop] <;> exact ⟨rfl, rfl⟩

theorem lineFailed_of_halted {st : Status} (h : halted u st) (hcur : u.lw.current = some cur) :
    u.lineFailed cur = ((u.raise .programFault).dropCurrent, [.refused cur.stream st, .serve]) := by
  obtain ⟨hacc, hst⟩ := not_accepting_of_halted (u := u.raise .programFault) h
  unfold State.lineFailed
  simp only [hacc, hst]
  exact refuseCurrent_of_some (u := u.raise .programFault) hcur st

/-- A first failure: the early opening, for which the record waits (R24). -/
theorem lineFailed_first (h : u.accepting = true) (hf : cur.failures = 0) : u.lineFailed cur =
    (u.raise .programFault).beginOpening (some { cur with place := none, done := 0, failures := 1 }) true := by
  have hacc : (u.raise .programFault).accepting = true := h
  unfold State.lineFailed
  simp only [hacc, hf]
  rfl

/-- A second failure: the record is refused ARRAY-FAULT, and the early opening begins for none (R25). -/
theorem lineFailed_second (h : u.accepting = true) (hf : cur.failures ≠ 0) : u.lineFailed cur =
    (((u.raise .programFault).dropCurrent.beginOpening none true).1,
      .refused cur.stream .arrayFault :: ((u.raise .programFault).dropCurrent.beginOpening none true).2) := by
  have hacc : (u.raise .programFault).accepting = true := h
  unfold State.lineFailed
  simp only [hacc, if_neg hf]
  rfl

theorem beginOpening_of_nobody (h : ∀ j, (u.sector j).st ≠ .blank) (early : Bool) :
    u.beginOpening none early = (u.dropCurrent, [.serve]) := by
  unfold State.beginOpening
  rw [candidate_none.mpr h]

end Failure

/-! ### The candidate -/

/-- Of equals the first listed is chosen. -/
theorem bestOf_append {α : Type} {better : α → α → Bool} {before after : List α} {v : α}
    (hb : ∀ x ∈ before, better v x = true) (ha : ∀ x ∈ after, better x v = false) :
    bestOf better (before ++ v :: after) = some v := by
  induction before with
  | nil =>
    rw [List.nil_append]
    unfold bestOf
    split
    · rfl
    · rename_i y hy
      rw [ha y (bestOf_mem hy)]
      rfl
  | cons x xs ih =>
    rw [List.forall_mem_cons] at hb
    rw [List.cons_append]
    unfold bestOf
    rw [ih hb.2]
    exact if_pos hb.1

/-- The candidate: the BLANK sector of the lowest erase count, of equals the lowest (R20). -/
theorem candidate_of_lowest {u : State} {k : SectorIx} (hk : (u.sector k).st = .blank)
    (hbest : ∀ j, (u.sector j).st = .blank → (u.sector k).eraseCount < (u.sector j).eraseCount ∨
      ((u.sector k).eraseCount = (u.sector j).eraseCount ∧ k ≤ j)) : u.candidate = some k := by
  have hsorted := sectorsIn_sorted u .blank
  obtain ⟨before, after, hl⟩ := List.append_of_mem (mem_sectorsIn.mpr hk)
  have hblank {j : SectorIx} (hj : j ∈ u.sectorsIn .blank) := hbest j (mem_sectorsIn.mp hj)
  rw [hl] at hblank hsorted
  obtain ⟨-, hafter, hacross⟩ := List.pairwise_append.mp hsorted
  unfold State.candidate
  rw [hl]
  refine bestOf_append (fun j hj => decide_eq_true ?_) fun j hj => decide_eq_false ?_
  · have hlt : j < k := hacross j hj k (List.mem_cons_self ..)
    exact (hblank (List.mem_append_left _ hj)).resolve_right fun ⟨_, hle⟩ => absurd hlt (not_lt.mpr hle)
  · rcases hblank (List.mem_append_right _ (List.mem_cons_of_mem _ hj)) with hlt | ⟨heq, -⟩ <;> omega

end Sys2Proof.Machine
end

section
/-! SUPPORT. What the directory takes: entries, lines and STALLED, record by record (R35, R54, R55, R57, R99). -/

namespace Sys2Proof.Machine

set_option Elab.async false

/-! ### Lines -/

theorem giveLines_zero (e : SectorEntry) : e.giveLines 0 = e := by
  simp [SectorEntry.giveLines]

theorem takeLines_zero (e : SectorEntry) : e.takeLines 0 = e := by
  simp [SectorEntry.takeLines]

theorem modSector_sector (u : State) (i : SectorIx) (f : SectorEntry → SectorEntry) (j : SectorIx) :
    (u.modSector i f).sector j = if j = i then f (u.sector j) else u.sector j := by
  refine (vector_get_set _ _ _ _).trans ?_
  by_cases h : j = i
  · rw [if_pos h, if_pos h, h]
    rfl
  · rw [if_neg h, if_neg h]
    rfl

theorem giveUp_eq (u : State) (i : SectorIx) (n : Nat) : u.giveUp i n =
    { u.modSector i (SectorEntry.giveLines n) with
      eng := { u.eng with stalled := u.eng.stalled && decide ((u.sector i).st ≠ .sealed) } } := by
  unfold State.giveUp
  by_cases h : (u.sector i).st = .sealed
  · rw [if_pos h, decide_eq_false (not_not_intro h), Bool.and_false]
    rfl
  · rw [if_neg h, decide_eq_true h, Bool.and_true]
    rfl

theorem giveUp_sector (u : State) (i : SectorIx) (n : Nat) (j : SectorIx) :
    (u.giveUp i n).sector j = (u.sector j).giveLines (if i = j then n else 0) := by
  rw [giveUp_eq]
  refine (modSector_sector u i _ j).trans ?_
  by_cases h : j = i
  · rw [if_pos h, if_pos h.symm]
  · rw [if_neg h, if_neg (Ne.symm h), giveLines_zero]

theorem takeUp_sector (u : State) (i : SectorIx) (n : Nat) (j : SectorIx) :
    (u.takeUp i n).sector j = (u.sector j).takeLines (if i = j then n else 0) := by
  refine (modSector_sector u i _ j).trans ?_
  by_cases h : j = i
  · rw [if_pos h, if_pos h.symm]
  · rw [if_neg h, if_neg (Ne.symm h), takeLines_zero]

/-- A change of lines leaves the rest of an entry, and the lines together. -/
abbrev onlyLines (e x : SectorEntry) : Prop :=
  x = { e with live := x.live, dead := x.dead } ∧ x.live + x.dead = e.live + e.dead

theorem onlyLines_giveLines (e : SectorEntry) (n : Nat) : onlyLines e (e.giveLines n) := by
  refine ⟨rfl, ?_⟩
  simp only [SectorEntry.giveLines]
  omega

theorem onlyLines_takeLines (e : SectorEntry) (n : Nat) : onlyLines e (e.takeLines n) := by
  refine ⟨rfl, ?_⟩
  simp only [SectorEntry.takeLines]
  omega

theorem onlyLines_trans {e x y : SectorEntry} (h1 : onlyLines e x) (h2 : onlyLines x y) : onlyLines e y := by
  obtain ⟨hx, hxs⟩ := h1
  obtain ⟨hy, hys⟩ := h2
  refine ⟨?_, hys.trans hxs⟩
  rw [hx] at hy
  exact hy

/-- Lines given up and taken, none of them short (R35). -/
theorem lines_counted {e x : SectorEntry} {g t : Nat} (h : x = (e.giveLines g).takeLines t) (hg : g ≤ e.live)
    (ht : t ≤ e.dead) : x.live + g = e.live + t ∧ x.dead + t = e.dead + g := by
  subst h
  simp only [SectorEntry.giveLines, SectorEntry.takeLines]
  omega

/-! ### One record -/

section Record
variable (u : State) (k : Key) (p : Bool) (l : Loc) (n len seq : Nat)

/-- The stale-copy mark of a record as it is taken (R57). -/
def staleTaken (u : State) (k : Key) (p : Bool) (l : Loc) : Bool :=
  match u.entry k with
  | some old => !p && u.newerSector old.loc.sector l.sector
  | none => false

theorem staleTaken_iff {u : State} {k : Key} {p : Bool} {l : Loc} : staleTaken u k p l = true ↔
    p = false ∧ ∃ old, u.entry k = some old ∧ earlier u l.sector old.loc.sector := by
  unfold staleTaken
  cases u.entry k with
  | none => simp
  | some old => rw [Bool.and_eq_true, Bool.not_eq_true', State.newerSector, older_iff]; simp

/-- The lines of a key's record given up. -/
def State.giveUpOf (u : State) (k : Key) : State :=
  match u.entry k with
  | some old => u.giveUp old.loc.sector old.lines
  | none => u

theorem takeRecord_eq : u.takeRecord k p l n len seq =
    { (u.giveUpOf k).takeUp l.sector n with
      dir := dirPut (u.giveUpOf k).dir
        { key := k, present := p, loc := l, lines := n, length := len, seq := seq, stale := staleTaken u k p l } } := rfl

theorem giveUpOf_rest : u.giveUpOf k =
    { u with sectors := (u.giveUpOf k).sectors, eng := { u.eng with stalled := (u.giveUpOf k).eng.stalled } } := by
  unfold State.giveUpOf
  split
  · rw [giveUp_eq]
    rfl
  · rfl

theorem giveUpOf_sector (j : SectorIx) : (u.giveUpOf k).sector j = (u.sector j).giveLines (entryLines u k j) := by
  unfold State.giveUpOf entryLines
  cases u.entry k with
  | none => exact (giveLines_zero _).symm
  | some old => exact giveUp_sector _ _ _ _

theorem giveUpOf_stalled : stalledAfter u [k] (u.giveUpOf k).eng.stalled := by
  unfold State.giveUpOf
  cases hk : u.entry k with
  | none => simp [stalledAfter, hk]
  | some old =>
    dsimp only
    rw [giveUp_eq]
    simp [stalledAfter, hk]

theorem takeRecord_rest : u.takeRecord k p l n len seq =
    { u with
      dir := (u.takeRecord k p l n len seq).dir
      sectors := (u.takeRecord k p l n len seq).sectors
      eng := { u.eng with stalled := (u.takeRecord k p l n len seq).eng.stalled } } := by
  rw [takeRecord_eq, giveUpOf_rest]
  rfl

theorem takeRecord_sector (j : SectorIx) : (u.takeRecord k p l n len seq).sector j =
    ((u.sector j).giveLines (entryLines u k j)).takeLines (if l.sector = j then n else 0) := by
  rw [takeRecord_eq, ← giveUpOf_sector]
  exact takeUp_sector _ _ _ _

theorem takeRecord_stalled : stalledAfter u [k] (u.takeRecord k p l n len seq).eng.stalled := giveUpOf_stalled u k

theorem takeRecord_find (k' : Key) : dirFind (u.takeRecord k p l n len seq).dir k' =
    if k = k' then some { key := k, present := p, loc := l, lines := n, length := len, seq := seq,
                          stale := staleTaken u k p l } else u.entry k' := by
  have hdir : (u.giveUpOf k).dir = u.dir := by rw [giveUpOf_rest]
  rw [takeRecord_eq]
  dsimp only
  rw [hdir, dirFind_dirPut]
  rfl

end Record

/-! ### The records of a commit -/

/-- What the taking of a commit's records leaves (R35, R54, R57, R99). -/
structure Took (u v : State) (ops : List Staged) (places : List Loc) (seq : Nat) : Prop where
  sector : ∀ j, onlyLines (u.sector j) (v.sector j)
  counted : linesCounted u v.sectors (givenIn u ops) (takenIn ops places)
  stalled : stalledAfter u (ops.map Staged.key) v.eng.stalled
  entries : ∀ i op l, ops[i]? = some op → places[i]? = some l →
    dirFind v.dir op.key = some { key := op.key, present := op.value.isSome, loc := l, lines := op.lines,
                                  length := op.bytes, seq := seq + i, stale := staleTaken u op.key op.value.isSome l }
  others : ∀ k, (∀ op ∈ ops, op.key ≠ k) → dirFind v.dir k = u.entry k

theorem givenIn_cons (u : State) (op : Staged) (ops : List Staged) (j : SectorIx) :
    givenIn u (op :: ops) j = entryLines u op.key j + givenIn u ops j := by
  simp [givenIn]

theorem takenIn_cons (op : Staged) (ops : List Staged) (l : Loc) (ls : List Loc) (j : SectorIx) :
    takenIn (op :: ops) (l :: ls) j = (if l.sector = j then op.lines else 0) + takenIn ops ls j := by
  simp [takenIn]

/-- Lines given up by operations on other keys are counted as before. -/
theorem givenIn_congr {u v : State} {ops : List Staged} (h : ∀ op ∈ ops, v.entry op.key = u.entry op.key) (j : SectorIx) :
    givenIn v ops j = givenIn u ops j := by
  unfold givenIn
  refine congrArg List.sum (List.map_congr_left fun op hop => ?_)
  unfold entryLines
  rw [h op hop]

theorem staleTaken_congr {u v : State} {k : Key} (h : v.entry k = u.entry k)
    (hs : ∀ j, (v.sector j).activation = (u.sector j).activation) (p : Bool) (l : Loc) :
    staleTaken v k p l = staleTaken u k p l := by
  rw [Bool.eq_iff_iff, staleTaken_iff, staleTaken_iff]
  simp only [earlier, h, hs]

theorem took_nil (u : State) (places : List Loc) (seq : Nat) : Took u u [] places seq where
  sector := fun _ => ⟨rfl, rfl⟩
  counted := fun j _ _ => by simp [givenIn, takenIn]; exact ⟨rfl, rfl⟩
  stalled := by simp
  entries := fun i op l h => by simp at h
  others := fun _ _ => rfl

theorem took_cons {u v : State} {op : Staged} {ops : List Staged} {l : Loc} {ls : List Loc} {seq : Nat}
    (hkey : ∀ x ∈ ops, op.key ≠ x.key)
    (h : Took (u.takeRecord op.key op.value.isSome l op.lines op.bytes seq) v ops ls (seq + 1)) :
    Took u v (op :: ops) (l :: ls) seq := by
  have hfind := takeRecord_find u op.key op.value.isSome l op.lines op.bytes seq
  have hsector := takeRecord_sector u op.key op.value.isSome l op.lines op.bytes seq
  have hstalled := takeRecord_stalled u op.key op.value.isSome l op.lines op.bytes seq
  generalize u.takeRecord op.key op.value.isSome l op.lines op.bytes seq = w at h hfind hsector hstalled
  have hlines (j : SectorIx) : onlyLines (u.sector j) (w.sector j) := by
    rw [hsector]
    exact onlyLines_trans (onlyLines_giveLines _ _) (onlyLines_takeLines _ _)
  have hother (x : Staged) (hx : x ∈ ops) : w.entry x.key = u.entry x.key := (hfind x.key).trans (if_neg (hkey x hx))
  refine ⟨fun j => onlyLines_trans (hlines j) (h.sector j), fun j hg ht => ?_, ?_, fun i o x ho hx => ?_, fun k hk => ?_⟩
  · rw [givenIn_cons] at hg ⊢
    rw [takenIn_cons] at ht ⊢
    have hone := lines_counted (hsector j) (by omega) (by omega)
    have htail := h.counted j (by rw [givenIn_congr hother]; omega) (by omega)
    rw [givenIn_congr hother] at htail
    omega
  · refine h.stalled.trans ((and_congr_left' hstalled).trans ?_)
    rw [List.forall_mem_singleton, List.map_cons, List.forall_mem_cons, and_assoc]
    refine and_congr_right fun _ => and_congr_right fun _ => ?_
    refine forall_congr' fun k => forall_congr' fun hk => ?_
    obtain ⟨x, hx, rfl⟩ := List.mem_map.mp hk
    rw [hother x hx]
    refine forall_congr' fun d => forall_congr' fun _ => ?_
    rw [(hlines d.loc.sector).1]
  · cases i with
    | zero =>
      cases ho
      cases hx
      exact (h.others op.key fun y hy => (hkey y hy).symm).trans ((hfind op.key).trans (if_pos rfl))
    | succ i =>
      have hmem : o ∈ ops := List.mem_of_getElem? ho
      rw [h.entries i o x ho hx, staleTaken_congr (hother o hmem) fun j => by rw [(hlines j).1]]
      congr 2
      omega
  · rw [List.forall_mem_cons] at hk
    exact (h.others k hk.2).trans ((hfind k).trans (if_neg hk.1))

/-- Of the state a commit's records touch the directory, the lines of the sectors, and STALLED (R35, R54, R99). -/
theorem takeCommit_rest (u : State) (ops : List Staged) (places : List Loc) (seq : Nat) :
    u.takeCommit ops places seq =
      { u with
        dir := (u.takeCommit ops places seq).dir
        sectors := (u.takeCommit ops places seq).sectors
        eng := { u.eng with stalled := (u.takeCommit ops places seq).eng.stalled } } := by
  induction ops generalizing u places seq with
  | nil => unfold State.takeCommit; rfl
  | cons op ops ih =>
    cases places with
    | nil => unfold State.takeCommit; rfl
    | cons l ls =>
      unfold State.takeCommit
      refine (ih _ _ _).trans ?_
      rw [takeRecord_rest]

/-- The directory takes the records of a commit (R54). -/
theorem takeCommit_took (u : State) {ops : List Staged} {places : List Loc} (seq : Nat) (hlen : ops.length ≤ places.length)
    (hnd : (ops.map Staged.key).Nodup) : Took u (u.takeCommit ops places seq) ops places seq := by
  induction ops generalizing u places seq with
  | nil =>
    unfold State.takeCommit
    exact took_nil u places seq
  | cons op ops ih =>
    cases places with
    | nil => exact nomatch hlen
    | cons l ls =>
      rw [List.map_cons, List.nodup_cons] at hnd
      refine took_cons (fun x hx heq => hnd.1 (heq ▸ List.mem_map_of_mem hx)) (ih _ _ ?_ hnd.2)
      simpa using hlen

end Sys2Proof.Machine
end

section
/-! SUPPORT. The record lines of the Log Writer as their programs end, and the records of the commit stream as they are
reported written (R19, R24–R26, R75, R76, R82). -/

namespace Sys2Proof.Machine

set_option Elab.async false

/-! ### Completions -/

/-- The commit has completed (R76). -/
def commitDone (u v : State) (f : CommitFlight) (tag : Byte) (inFlight : List (Byte × Byte)) : State :=
  { u with
    dir := v.dir
    sectors := v.sectors.map (fun e => { e with mark := false })
    eng := { u.eng with stalled := v.eng.stalled }
    lw := { u.lw with commitRes := none }
    tm := { u.tm with staging := [], commit := none }
    cu := u.cu.ended inFlight (flightDone 0x23#8 tag .ok f.first (recordsOf f.n) f.txn) }

theorem commitWritten_counted {u : State} {f : CommitFlight} (hf : u.tm.commit = some f) (l : Loc)
    (h : f.written.length + 1 < recordsOf f.n) :
    u.commitWritten l = (u.setCommit (some { f with written := f.written ++ [l] }), []) := by
  unfold State.commitWritten
  rw [hf]
  dsimp only
  rw [if_neg]
  rw [List.length_append, List.length_singleton]
  omega

theorem commitWritten_last {u : State} {f : CommitFlight} (hf : u.tm.commit = some f) (l : Loc)
    (h : recordsOf f.n ≤ f.written.length + 1) : u.commitWritten l =
      ((u.setCommit (some { f with written := f.written ++ [l] })).commitComplete { f with written := f.written ++ [l] },
        []) := by
  unfold State.commitWritten
  rw [hf]
  dsimp only
  rw [if_pos]
  rw [List.length_append, List.length_singleton]
  exact h

/-- The last record of a commit is reported written: the directory takes its records (R54, R76). -/
theorem commitWritten_completes {u : State} {f : CommitFlight} {before after : List (Byte × Byte)} {tag : Byte}
    (hf : u.tm.commit = some f) (l : Loc) (hlast : recordsOf f.n ≤ f.written.length + 1)
    (hlen : u.tm.staging.length ≤ f.written.length + 1) (hnd : (u.tm.staging.map Staged.key).Nodup)
    (hfly : u.cu.flies before 0x23#8 tag after) :
    ∃ v, Took u v u.tm.staging (f.written ++ [l]) f.first ∧
      u.commitWritten l = (commitDone u v f tag (before ++ after), []) := by
  have htook := takeCommit_took (u.setCommit (some { f with written := f.written ++ [l] })) (ops := u.tm.staging)
    (places := f.written ++ [l]) f.first (by rwa [List.length_append, List.length_singleton]) hnd
  have hrest := takeCommit_rest (u.setCommit (some { f with written := f.written ++ [l] })) u.tm.staging
    (f.written ++ [l]) f.first
  refine ⟨_, ⟨htook.sector, htook.counted, htook.stalled, htook.entries, htook.others⟩, ?_⟩
  rw [commitWritten_last hf l hlast]
  refine congrArg (·, []) ?_
  unfold State.commitComplete
  rw [show (u.setCommit (some { f with written := f.written ++ [l] })).tm.staging = u.tm.staging from rfl]
  generalize State.takeCommit _ _ _ _ = v at hrest ⊢
  dsimp only
  rw [finish_of_flies (before := before) (after := after) (tag := tag)]
  · rw [hrest]
    rfl
  · rw [hrest]
    exact hfly

/-- The settings write has completed (R55, R82). -/
def settingsDone (u v : State) (f : SettingsFlight) (tag : Byte) (inFlight : List (Byte × Byte)) : State :=
  { u with
    dir := v.dir
    sectors := v.sectors
    eng := { u.eng with stalled := v.eng.stalled }
    lw := { u.lw with commitRes := none }
    tm := { u.tm with settings := none }
    cu := u.cu.ended inFlight (flightDone 0x31#8 tag .ok f.seq 0 0) }

/-- The settings record is reported written: the directory takes it (R55, R82). -/
theorem commitWritten_settings {u : State} {f : SettingsFlight} {before after : List (Byte × Byte)} {tag : Byte}
    (hc : u.tm.commit = none) (hf : u.tm.settings = some f) (l : Loc) (hfly : u.cu.flies before 0x31#8 tag after) :
    u.commitWritten l = (settingsDone u
      (u.takeRecord Config.settingsKey true l (linesFor f.payload.length) f.payload.length f.seq) f tag (before ++ after),
        []) := by
  have hrest := takeRecord_rest u Config.settingsKey true l (linesFor f.payload.length) f.payload.length f.seq
  unfold State.commitWritten
  rw [hc]
  dsimp only
  rw [hf]
  refine congrArg (·, []) ?_
  unfold State.settingsComplete
  generalize State.takeRecord _ _ _ _ _ _ _ = v at hrest ⊢
  dsimp only
  rw [finish_of_flies (s := v.releaseCommit.setSettingsWrite none) (before := before) (after := after) (tag := tag)]
  · rw [hrest]
    rfl
  · rw [hrest]
    exact hfly

/-! ### The engine beside them -/

/-- The engine rests by the store, the settings, the states of the sectors and whoever waits. -/
theorem engineRests_congr {y z : State} (h : z.engineRests) (hstore : y.store = z.store) (heng : y.eng.st = z.eng.st)
    (hset : y.settings = z.settings) (htm : y.tm = z.tm) (hsec : ∀ j, (y.sector j).st = (z.sector j).st) :
    y.engineRests := by
  have hin (st : SectorState) : y.sectorsIn st = z.sectorsIn st := by
    unfold State.sectorsIn
    simp only [hsec]
  have hwait : y.spaceWaiter = z.spaceWaiter := by
    unfold State.spaceWaiter
    rw [htm]
  unfold State.engineRests State.blankCount at *
  rw [hstore, heng, hset, hin, hin, hin, hwait]
  exact h

theorem map_get (v : Vector SectorEntry 32) (f : SectorEntry → SectorEntry) (j : SectorIx) :
    (v.map f).get j = f (v.get j) :=
  Vector.getElem_map ..

/-! ### What pends as a line ends -/

section Line
variable {s : State} {sec : SectorIx} {line : Nat} {data : List Byte} {cur : InProgress} {loc : Loc}

theorem pends_of_line (h : performs s .l (.program sec line data)) (hline : 2 ≤ line) {v : Verify} {a : Answer}
    (ha : (programOver s .l sec line data v).lineEnded v = a) {stored : Nat → Prop} (hb : bytesKept s a.1 stored) :
    Pends (.lineProgramEnd v) s stored lookAhead 400 (queued a.2 []) a.1 :=
  pends_of_conclude (by rw [exec_lineProgramEnd h hline, ha]) hb

theorem queued_refused (str : Stream) (st : Status) : queued [.refused str st, .serve] [] = [.refused str st, .serve] :=
  queued_inner (by simp [Signal.isApart]) []

/-- A record's last line: it is reported written, and nothing is ready behind it (R19). -/
theorem pends_of_lastLine (h : lastLine s sec line data cur loc) :
    Pends (.lineProgramEnd .passed) s (fun ln => ln = lineNo sec line) lookAhead 400
      [.written cur.stream cur.record loc, .serve] (recordOver s sec line data) := by
  obtain ⟨hperf, hline, hcur, hplace, hlast, -⟩ := h
  have hended : (programOver s .l sec line data .passed).lineEnded .passed =
      (recordOver s sec line data, [.written cur.stream cur.record loc, .serve]) :=
    (lineEnded_passed (u := programOver s .l sec line data .passed) hcur hplace).trans (linePassed_last hlast)
  have hpend := pends_of_line hperf hline hended (bytesKept_endProgram (u := recordOver s sec line data) rfl)
  rwa [queued_inner (by simp [Signal.isApart])] at hpend

theorem servesNothing_of_lastLine (h : lastLine s sec line data cur loc) {y : State}
    (hc : y.lw.commitReady = s.lw.commitReady) (hr : y.lw.reclaimReady = s.lw.reclaimReady) : servesNothing y := by
  obtain ⟨-, -, -, -, -, -, hcr, hrr⟩ := h
  exact .inr (.inr (.inr ⟨hc.trans hcr, hr.trans hrr⟩))

/-- The last record of a commit is reported written (R76). -/
theorem commit_completes {f : CommitFlight} {before after : List (Byte × Byte)} {tag : Byte}
    (h : lastLine s sec line data cur loc) (hstr : cur.stream = .commit) (hf : s.tm.commit = some f)
    (hlast : recordsOf f.n ≤ f.written.length + 1) (hlen : s.tm.staging.length ≤ f.written.length + 1)
    (hnd : (s.tm.staging.map Staged.key).Nodup) (hfly : s.cu.flies before 0x23#8 tag after)
    (hrests : State.engineRests { s with tm := { s.tm with staging := [], commit := none } }) :
    ∃ v, Took s v s.tm.staging (f.written ++ [loc]) f.first ∧
      endsIn (.lineProgramEnd .passed) s (commitDone (recordOver s sec line data) v f tag (before ++ after))
        (fun ln => ln = lineNo sec line) := by
  obtain ⟨v, htook, hdone⟩ := commitWritten_completes (u := recordOver s sec line data) hf loc hlast hlen hnd hfly
  refine ⟨v, ⟨htook.sector, htook.counted, htook.stalled, htook.entries, htook.others⟩, ?_⟩
  have hpend := pends_of_lastLine h
  rw [hstr] at hpend
  have hafter := Pends.handle (n := 399) hpend hdone
  rw [queued_nil] at hafter
  refine (Pends.serve_rests (n := 398) hafter (servesNothing_of_lastLine h rfl rfl)).ends_quiet closesQuiet_lookAhead
    (engineRests_congr hrests rfl rfl rfl rfl fun j => ?_)
  have hsec : (commitDone (recordOver s sec line data) v f tag (before ++ after)).sector j =
      { v.sector j with mark := false } := map_get _ _ _
  rw [hsec, (htook.sector j).1]
  rfl

end Line

/-! ### The sectors after a commit -/

section Sectors
variable {s v : State} {ops : List Staged} {places : List Loc} {seq : Nat}

theorem unmarked_get (v : State) (j : SectorIx) :
    (v.sectors.map fun e => { e with mark := false }).get j = { v.sector j with mark := false } := map_get _ _ _

theorem Took.unmarked (h : Took s v ops places seq) (j : SectorIx) :
    let x := (v.sectors.map fun e => { e with mark := false }).get j
    x = { s.sector j with live := x.live, dead := x.dead, mark := false } ∧
      x.live + x.dead = (s.sector j).live + (s.sector j).dead := by
  obtain ⟨hsame, hsum⟩ := h.sector j
  intro x
  have hx : x = { v.sector j with mark := false } := unmarked_get v j
  refine ⟨?_, ?_⟩
  · rw [hx, hsame]
  · rw [hx]
    exact hsum

theorem Took.counted_unmarked (h : Took s v ops places seq) :
    linesCounted s (v.sectors.map fun e => { e with mark := false }) (givenIn s ops) (takenIn ops places) := by
  intro j hg ht
  rw [unmarked_get]
  exact h.counted j hg ht

end Sectors

theorem stale_iff {s : State} {op : Staged} {l : Loc} : staleTaken s op.key op.value.isSome l = true ↔
    op.value = none ∧ ∃ old, s.entry op.key = some old ∧ earlier s l.sector old.loc.sector := by
  rw [staleTaken_iff, Option.isSome_eq_false_iff, Option.isNone_iff_eq_none]

/-- Settles O47, by the record in progress: its next line, its report, its failures and its refusals. -/
theorem lineProgramEnd : Obligations.LineProgramEnd := by
  intro s sec line data cur loc hperf hline hcur hplace stored gone failed given w asked blankless unready
  have passed {a : Answer} (ha : (programOver s .l sec line data .passed).linePassed cur loc = a)
      (hflash : a.1.flash = s.flash.endProgram sec line data) :
      Pends (.lineProgramEnd .passed) s stored lookAhead 400 (queued a.2 []) a.1 :=
    pends_of_line hperf hline ((lineEnded_passed (u := programOver s .l sec line data .passed) hcur hplace).trans ha)
      (bytesKept_endProgram hflash)
  have failing {a : Answer} (ha : (programOver s .l sec line data .failed).lineFailed cur = a)
      (hflash : a.1.flash = s.flash.failProgram sec line) :
      Pends (.lineProgramEnd .failed) s nowhere lookAhead 400 (queued a.2 []) a.1 :=
    pends_of_line hperf hline ((lineEnded_failed (u := programOver s .l sec line data .failed) hcur hplace).trans ha)
      (bytesKept_failProgram nowhere hflash)
  refine ⟨fun hnext => ⟨fun hlen hwf => holdsLine_endProgram hlen hwf rfl, fun hw => ?_, fun hst _ => ?_,
    fun hst hstop => ?_⟩, fun f op before tag after hlast hstr hf hn hwritten hlist hset hopen hun hfly hrests => ?_,
    fun hw => ⟨fun k hk hfirst => ?_, fun k hk hsecond => ?_, fun hblank hun => ?_⟩, fun st hhalt => ?_⟩
  · obtain ⟨hst, -⟩ := id hw
    have hline := linePassed_next (u := gone) (loc := loc) hnext fun hro => nomatch hst.symm.trans hro.1
    rw [requestLine_of_writable (s := gone) hw] at hline
    exact ⟨(passed hline rfl).concludes, fun hlen hwf => holdsLine_grant (holdsLine_endProgram hlen hwf rfl)⟩
  · have hline := linePassed_next (u := gone) (loc := loc) hnext fun hro => nomatch hst.symm.trans hro.1
    rw [requestLine_of_powerHold (u := gone) hst] at hline
    have hpend := passed hline rfl
    rw [queued_refused] at hpend
    refine Pends.to_refusesIn onlyServes_one (.inl ?_) (hpend.mono (by omega))
    exact (not_accepting_of_halted (u := s) (.inl ⟨hst, ‹_›, rfl⟩)).1
  · have hpend := passed (linePassed_readOnly (u := gone) hnext hcur hst hstop) rfl
    rw [queued_refused] at hpend
    refine Pends.to_refusesIn onlyServes_one (.inl ?_) (hpend.mono (by omega))
    exact (not_accepting_of_halted (u := s) (.inr ⟨hst, hstop, rfl⟩)).1
  · have hll : lastLine s sec line data cur loc := ⟨hperf, hline, hcur, hplace, hlast, hopen, hun⟩
    have hone : recordsOf f.n = 1 := by rw [hn]; rfl
    obtain ⟨v, htook, hends⟩ := commit_completes (tag := tag) hll hstr hf (by rw [hone, hwritten]; exact Nat.le_refl _)
      (by rw [hlist, hwritten]; exact Nat.le_refl _) (by rw [hlist]; exact List.nodup_singleton _) hfly hrests
    unfold commitDone at hends
    rw [hone] at hends
    rw [hwritten, hlist, List.nil_append] at htook
    have hentry := htook.entries 0 op loc rfl rfl
    exact ⟨_, _, _, _, hends, htook.stalled, hentry, stale_iff,
      fun k hk => htook.others k (List.forall_mem_singleton.mpr hk.symm), htook.unmarked, htook.counted_unmarked⟩
  · have hfail := lineFailed_first (u := programOver s .l sec line data .failed) (accepting_of_writable hw) hfirst
    rw [beginOpening_of_candidate (s := (programOver s .l sec line data .failed).raise .programFault) hw hk] at hfail
    exact (failing hfail rfl).concludes
  · have hfail := lineFailed_second (u := programOver s .l sec line data .failed) (accepting_of_writable hw) hsecond
    rw [beginOpening_of_candidate (s := ((programOver s .l sec line data .failed).raise .programFault).dropCurrent) hw hk] at hfail
    have hpend := failing hfail rfl
    rw [queued_inner (by simp [Signal.isApart])] at hpend
    exact Pends.to_refusesIn onlyServes_nil (.inr (.inr (.inl nofun))) (hpend.mono (by omega))
  · have hserves : servesNothing { failed with lw := given } := .inr (.inr (.inr hun))
    by_cases hfirst : cur.failures = 0
    · have hfail := lineFailed_first (u := programOver s .l sec line data .failed) (accepting_of_writable hw) hfirst
      rw [beginOpening_of_none (s := (programOver s .l sec line data .failed).raise .programFault) hblank] at hfail
      have hpend := failing hfail rfl
      rw [queued_refused] at hpend
      rw [if_pos hfirst]
      exact Pends.to_refusesIn onlyServes_one hserves (hpend.mono (by omega))
    · have hfail := lineFailed_second (u := programOver s .l sec line data .failed) (accepting_of_writable hw) hfirst
      rw [beginOpening_of_nobody (u := ((programOver s .l sec line data .failed).raise .programFault).dropCurrent) hblank] at hfail
      have hpend := failing hfail rfl
      rw [queued_refused] at hpend
      rw [if_neg hfirst]
      exact Pends.to_refusesIn onlyServes_one hserves (hpend.mono (by omega))
  · have hfail := lineFailed_of_halted (u := programOver s .l sec line data .failed) hhalt hcur
    have hpend := failing hfail rfl
    rw [queued_refused] at hpend
    refine Pends.to_refusesIn onlyServes_one (.inl ?_) (hpend.mono (by omega))
    exact (not_accepting_of_halted (u := s) hhalt).1

/-- A record of one line more than a commit's operations is its COMMIT record (R74). -/
theorem recordsOf_several {n : Nat} (h : 2 ≤ n) : recordsOf n = n + 1 := if_neg (by omega)

theorem took_settings_counted (s : State) (x : Loc) (len seq : Nat) :
    let v := s.takeRecord Config.settingsKey true x 5 len seq
    linesCounted s v.sectors (entryLines s 0xFF01#16) (fun j => if x.sector = j then 5 else 0) := by
  intro v j hg ht
  exact lines_counted (takeRecord_sector s Config.settingsKey true x 5 len seq j) hg ht

/-- Settles O48: the COMMIT record takes what the operations' records have left, the settings record its own place. -/
theorem commitStreamWritten : Obligations.CommitStreamWritten := by
  intro s sec line data cur x hlast hstr stored gone
  have hpend := pends_of_lastLine hlast
  rw [hstr] at hpend
  refine ⟨fun f hf hmore => ?_, fun f before tag after hf hn hlen hwritten hnd hfly hrests => ?_,
    fun f before tag after hc hf hpayload hfly hrests => ?_⟩
  · have hafter := Pends.handle (n := 399) hpend (commitWritten_counted (u := gone) hf x hmore)
    rw [queued_nil] at hafter
    exact (Pends.serve_rests (n := 398) hafter (servesNothing_of_lastLine hlast rfl rfl)).concludes
  · have hrecords := recordsOf_several hn
    obtain ⟨v, htook, hends⟩ := commit_completes (tag := tag) hlast hstr hf (by omega) (by omega) hnd hfly hrests
    unfold commitDone at hends
    rw [hrecords] at hends
    refine ⟨_, _, _, hends, fun i op l hop hl => ⟨_, htook.entries i op l hop ?_, stale_iff⟩, htook.others, htook.unmarked,
      ?_, htook.stalled⟩
    · obtain ⟨hi, -⟩ := List.getElem?_eq_some_iff.mp hl
      rw [List.getElem?_append_left hi]
      exact hl
    · have hcounted := htook.counted_unmarked
      have htaken : takenIn s.tm.staging (f.written ++ [x]) = takenIn s.tm.staging f.written := by
        funext j
        have hzip := List.zipWith_append (f := fun (o : Staged) (p : Loc) => if p.sector = j then o.lines else 0)
          (l₁ := s.tm.staging) (l₁' := []) (l₂ := f.written) (l₂' := [x]) (by omega)
        rw [List.append_nil] at hzip
        unfold takenIn
        rw [hzip, List.zipWith_nil_left, List.append_nil]
      rw [htaken] at hcounted
      exact hcounted
  · have hlines : linesFor f.payload.length = 5 := by rw [hpayload]; rfl
    have hdone := commitWritten_settings (u := gone) (tag := tag) hc hf x hfly
    have hfind := takeRecord_find gone Config.settingsKey true x 5 52 f.seq
    have hsector := takeRecord_sector gone Config.settingsKey true x 5 52 f.seq
    have hstalled := takeRecord_stalled gone Config.settingsKey true x 5 52 f.seq
    have hcounted := took_settings_counted gone x 52 f.seq
    rw [hlines, hpayload] at hdone
    have hafter := Pends.handle (n := 399) hpend hdone
    rw [queued_nil] at hafter
    generalize gone.takeRecord Config.settingsKey true x 5 52 f.seq = v at *
    have honly (j : SectorIx) : onlyLines (s.sector j) (v.sector j) := by
      rw [hsector]
      exact onlyLines_trans (onlyLines_giveLines _ _) (onlyLines_takeLines _ _)
    have hfresh : staleTaken gone Config.settingsKey true x = false :=
      Bool.eq_false_iff.mpr fun h => nomatch (staleTaken_iff.mp h).1
    refine ⟨v.dir, v.sectors, v.eng.stalled, ?_, ?_, fun k hk => ?_, honly, hcounted, hstalled⟩
    · refine (Pends.serve_rests (n := 398) hafter (servesNothing_of_lastLine hlast rfl rfl)).ends_quiet
        closesQuiet_lookAhead (engineRests_congr hrests rfl rfl rfl rfl fun j => ?_)
      show (v.sector j).st = (s.sector j).st
      rw [(honly j).1]
    · rw [hfresh] at hfind
      exact (hfind _).trans (if_pos rfl)
    · exact (hfind k).trans (if_neg hk.symm)

end Sys2Proof.Machine
end

section
/-! SUPPORT. The open stamp program of the Log Writer as it ends: the sector change, and the candidate that is lost (R20,
R23, R24, R28). -/

namespace Sys2Proof.Machine

set_option Elab.async false

section Ends
variable {u : State} {o : Opening} {p : AppendPoint}

/-! ### The sector change -/

/-- Lines charged to a record's stream (R23). -/
def chargedLines (w : LogWriter) (x : Stream) (early : Bool) (n : Nat) : LogWriter :=
  { w with
    commitRes := if x = .commit ∧ early = false then w.commitRes.map (fun k => k - n) else w.commitRes
    reclaimRes := if x = .reclaim ∧ early = false then w.reclaimRes.map (fun k => k - n) else w.reclaimRes }

theorem chargedLines_early (w : LogWriter) (x : Stream) (n : Nat) : chargedLines w x true n = w := by
  simp [chargedLines]

theorem chargedLines_ordinary (w : LogWriter) (x : Stream) (n : Nat) : chargedLines w x false n = w.charge x n := by
  cases x <;> simp [chargedLines, LogWriter.charge]

/-- The sectors after a sector change: the old ACTIVE one SEALED, the candidate ACTIVE (R28). -/
def openedSectors (u : State) (o : Opening) (p : AppendPoint) : Vector SectorEntry 32 :=
  (u.sectors.set p.sector.val { u.sector p.sector with
      st := .sealed, dead := (u.sector p.sector).dead + (256 - p.line) } p.sector.isLt).set o.candidate.val
    { u.sector o.candidate with
      st := .active, activation := o.activation, openingSeq := o.openingSeq, live := 0, dead := 0 } o.candidate.isLt

/-- The append point a sector change gives (R28). -/
def firstLine (o : Opening) : AppendPoint := { sector := o.candidate, line := 2 }

theorem opened_modSector (hne : p.sector ≠ o.candidate) :
    (u.modSector p.sector (SectorEntry.toSealed p.line)).modSector o.candidate
      (SectorEntry.toActive o.activation o.openingSeq) = { u with sectors := openedSectors u o p } := by
  have hget : (u.sectors.set p.sector.val (SectorEntry.toSealed p.line (u.sectors.get p.sector)) p.sector.isLt).get
      o.candidate = u.sectors.get o.candidate := by
    rw [vector_get_set, if_neg (Ne.symm hne)]
  simp only [State.modSector, hget]
  rfl

theorem sealOld_of_record (hp : u.lw.point = some p) {cur : InProgress} (hcur : u.lw.current = some cur) (early : Bool) :
    u.sealOld early = { u.modSector p.sector (SectorEntry.toSealed p.line) with
      lw := chargedLines u.lw cur.stream early (256 - p.line) } := by
  unfold State.sealOld
  rw [hp]
  dsimp only
  rw [hcur]
  cases early with
  | true => rw [chargedLines_early]; rfl
  | false => rw [chargedLines_ordinary]; rfl

theorem sealOld_of_nobody (hp : u.lw.point = some p) (hcur : u.lw.current = none) (early : Bool) :
    u.sealOld early = u.modSector p.sector (SectorEntry.toSealed p.line) := by
  unfold State.sealOld
  rw [hp]
  dsimp only
  rw [hcur]

/-- The state after a sector change that a record has waited for (R28). -/
def sectorChanged (u : State) (o : Opening) (p : AppendPoint) (x : Stream) : State :=
  { u with
    sectors := openedSectors u o p
    lw := { chargedLines u.lw x o.early (256 - p.line) with opening := none, point := some (firstLine o) } }

/-- The sector change with a record that waits (R20, R28). -/
theorem openingEnded_of_record (ho : u.lw.opening = some o) (hp : u.lw.point = some p) (hne : p.sector ≠ o.candidate)
    {cur : InProgress} (hcur : u.lw.current = some cur) : u.openingEnded .passed =
      (sectorChanged u o p cur.stream).afterOpening (firstLine o) := by
  have hmod := opened_modSector (u := u) hne
  unfold State.openingEnded
  rw [ho]
  dsimp only
  rw [sealOld_of_record hp hcur]
  have hmod' : State.modSector { u.modSector p.sector (SectorEntry.toSealed p.line) with
      lw := chargedLines u.lw cur.stream o.early (256 - p.line) } o.candidate
        (SectorEntry.toActive o.activation o.openingSeq) = { u with
          sectors := openedSectors u o p, lw := chargedLines u.lw cur.stream o.early (256 - p.line) } :=
    congrArg (fun x : State => { x with lw := chargedLines u.lw cur.stream o.early (256 - p.line) }) hmod
  rw [hmod']
  rfl

/-- The state after a sector change that no record has waited for (R28). -/
def sectorLeft (u : State) (o : Opening) (p : AppendPoint) : State :=
  { u with
    sectors := openedSectors u o p
    lw := { u.lw with current := none, opening := none, point := some (firstLine o) } }

/-- The sector change that no record waits for (R20, R25, R28). -/
theorem openingEnded_of_nobody (ho : u.lw.opening = some o) (hp : u.lw.point = some p) (hne : p.sector ≠ o.candidate)
    (hcur : u.lw.current = none) : u.openingEnded .passed = (sectorLeft u o p, [.serve]) := by
  unfold State.openingEnded
  rw [ho]
  dsimp only
  rw [sealOld_of_nobody hp hcur, opened_modSector hne]
  unfold State.afterOpening
  dsimp only
  rw [hcur]
  rfl

theorem afterOpening_of_accepting {cur : InProgress} (hcur : u.lw.current = some cur) (hacc : u.accepting = true) :
    u.afterOpening p = u.placeRecord cur p := by
  unfold State.afterOpening
  rw [hcur]
  exact if_pos hacc

theorem afterOpening_of_halted {cur : InProgress} (hcur : u.lw.current = some cur) {st : Status} (h : halted u st) :
    u.afterOpening p = (u.dropCurrent, [.refused cur.stream st, .serve]) := by
  obtain ⟨hacc, hst⟩ := not_accepting_of_halted h
  unfold State.afterOpening
  rw [hcur]
  dsimp only
  rw [hacc, hst, if_neg Bool.false_ne_true]
  exact refuseCurrent_of_some hcur st

/-! ### The candidate that is lost -/

/-- The opening has ended with its candidate ERASE-PENDING (R24, R28). -/
def openingLost (u : State) (o : Opening) : State :=
  { u with
    win := u.win.raised .programFault
    sectors := u.sectors.set o.candidate.val { u.sector o.candidate with st := .erasePending, live := 0, dead := 0 }
      o.candidate.isLt
    lw := { u.lw with opening := none } }

theorem openingEnded_failed (ho : u.lw.opening = some o) (hacc : u.accepting = true) :
    u.openingEnded .failed = (openingLost u o).beginOpening u.lw.current o.early := by
  unfold State.openingEnded
  rw [ho]
  exact if_pos (c := (openingLost u o).accepting = true) hacc

theorem openingEnded_failed_of_not_accepting (ho : u.lw.opening = some o) (hacc : u.accepting = false) :
    u.openingEnded .failed = (openingLost u o).refuseCurrent u.writerStatus := by
  have hno : ¬ (openingLost u o).accepting = true := by
    rw [show (openingLost u o).accepting = u.accepting from rfl, hacc]
    exact Bool.false_ne_true
  unfold State.openingEnded
  rw [ho]
  exact if_neg hno

theorem openingLost_sector (j : SectorIx) : (openingLost u o).sector j =
    if j = o.candidate then { u.sector o.candidate with st := .erasePending, live := 0, dead := 0 } else u.sector j :=
  vector_get_set _ _ _ _

theorem openingLost_blank {j : SectorIx} (h : ((openingLost u o).sector j).st = .blank) :
    j ≠ o.candidate ∧ (openingLost u o).sector j = u.sector j ∧ (u.sector j).st = .blank := by
  rw [openingLost_sector] at h ⊢
  by_cases hj : j = o.candidate
  · rw [if_pos hj] at h
    exact nomatch h
  · rw [if_neg hj] at h ⊢
    exact ⟨hj, rfl, h⟩

/-- The next candidate: the BLANK sector left of the lowest erase count, of equals the lowest (R20, R24). -/
theorem openingLost_candidate {k : SectorIx} (hk : k ≠ o.candidate) (hblank : (u.sector k).st = .blank)
    (hbest : ∀ j, j ≠ o.candidate → (u.sector j).st = .blank → (u.sector k).eraseCount < (u.sector j).eraseCount ∨
      ((u.sector k).eraseCount = (u.sector j).eraseCount ∧ k ≤ j)) : (openingLost u o).candidate = some k := by
  have hsame : (openingLost u o).sector k = u.sector k := (openingLost_sector k).trans (if_neg hk)
  refine candidate_of_lowest (by rw [hsame]; exact hblank) fun j hj => ?_
  obtain ⟨hne, hj', hjb⟩ := openingLost_blank hj
  rw [hsame, hj']
  exact hbest j hne hjb

theorem openingLost_blankless (h : ∀ j, j ≠ o.candidate → (u.sector j).st ≠ .blank) (j : SectorIx) :
    ((openingLost u o).sector j).st ≠ .blank := fun hj => by
  obtain ⟨hne, -, hblank⟩ := openingLost_blank hj
  exact h j hne hblank

end Ends

/-! ### A record served after the change -/

/-- The record whose turn it is is served (R18). -/
theorem serve_of_turn {u : State} {x : Stream} {r : Record} (hw : u.writable) (hcur : u.lw.current = none)
    (hopen : u.lw.opening = none)
    (hc : x = .commit → u.lw.commitReady = some r ∧ (u.lw.reclaimReady = none ∨ u.lw.flag = .commit))
    (hr : x = .reclaim → u.lw.reclaimReady = some r ∧ (u.lw.commitReady = none ∨ u.lw.flag = .reclaim)) :
    u.serve = u.serveStream x r := by
  have hfree : (u.accepting && u.lw.current.isNone && u.lw.opening.isNone) = true := by
    rw [accepting_of_writable hw, hcur, hopen]
    rfl
  unfold State.serve
  rw [if_pos hfree]
  cases x with
  | commit =>
    obtain ⟨hready, hturn⟩ := hc rfl
    rw [hready]
    cases hother : u.lw.reclaimReady with
    | none => rfl
    | some rr =>
      have hflag : u.lw.flag = .commit := hturn.resolve_left (by rw [hother]; exact nofun)
      dsimp only
      rw [hflag]
  | reclaim =>
    obtain ⟨hready, hturn⟩ := hr rfl
    rw [hready]
    cases hother : u.lw.commitReady with
    | none => rfl
    | some rc =>
      have hflag : u.lw.flag = .reclaim := hturn.resolve_left (by rw [hother]; exact nofun)
      dsimp only
      rw [hflag]

/-- The Log Writer once the record of a stream has been taken (R18). -/
def LogWriter.taken (w : LogWriter) (x : Stream) : LogWriter :=
  { w with
    commitReady := if x = .commit then none else w.commitReady
    reclaimReady := if x = .reclaim then none else w.reclaimReady
    flag := if x = .commit then .reclaim else .commit }

/-- The record of a stream is served: placed at the append point where it fits (R18, R19). -/
theorem serveStream_of_fits {u : State} {p : AppendPoint} {x : Stream} {r : Record} (hw : u.writable)
    (hp : u.lw.point = some p) (hfit : r.lines ≤ 256 - p.line) :
    u.serveStream x r = (u.recordPlaced (u.lw.taken x) x r p 0, []) := by
  have hplaced := beginRecord_of_fits (s := { u with lw := u.lw.taken x }) (p := p) hw hp (cur := freshRecord x r) hfit
  cases x <;> exact hplaced

/-- Settles O49, by what waits for the opening and by how its open stamp's program ends. -/
theorem openStampProgramEnd : Obligations.OpenStampProgramEnd := by
  intro s sec data o p hperf ho hp hne stored old new opened first lost gone next blankless unready freed
  have ended {v : Verify} {a : Answer} (ha : (programOver s .l sec 1 data v).openingEnded v = a)
      {kept : Nat → Prop} (hb : bytesKept s a.1 kept) :
      Pends (.openStampProgramEnd v) s kept lookAhead 400 (queued a.2 []) a.1 :=
    pends_of_conclude (by rw [exec_openStampProgramEnd hperf, ha]) hb
  have passed {a : Answer} (ha : (programOver s .l sec 1 data .passed).openingEnded .passed = a)
      (hflash : a.1.flash = s.flash.endProgram sec 1 data) := ended ha (bytesKept_endProgram hflash)
  have failing {a : Answer} (ha : (programOver s .l sec 1 data .failed).openingEnded .failed = a)
      (hflash : a.1.flash = s.flash.failProgram sec 1) := ended ha (bytesKept_failProgram nowhere hflash)
  have onward (hw : s.writable) (k : SectorIx) (hk : next k) :
      concludesIn (.openStampProgramEnd .failed) s (gone.openingPlaced s.lw s.lw.current k o.early) nowhere := by
    obtain ⟨hkne, hkblank, hkbest⟩ := hk
    have hcand := openingLost_candidate (u := programOver s .l sec 1 data .failed) hkne hkblank hkbest
    have hfail := openingEnded_failed (u := programOver s .l sec 1 data .failed) ho (accepting_of_writable hw)
    rw [beginOpening_of_candidate (s := openingLost (programOver s .l sec 1 data .failed) o) hw hcand] at hfail
    exact (failing hfail rfl).concludes
  refine ⟨fun hlen hwf => holdsLine_endProgram hlen hwf rfl, fun cur hcur => ?_, fun hcur => ?_⟩
  · have hopened := openingEnded_of_record (u := programOver s .l sec 1 data .passed) ho hp hne hcur
    let changed := sectorChanged (programOver s .l sec 1 data .passed) o p cur.stream
    refine ⟨fun hw => ?_, fun st hhalt => ?_, fun hw => ⟨fun k hk => ?_, fun hblank hun => ?_⟩, fun st hhalt => ?_⟩
    · rw [afterOpening_of_accepting (u := changed) hcur (accepting_of_writable hw),
        placeRecord_of_writable (s := changed) (p := firstLine o) hw rfl] at hopened
      exact ⟨(passed hopened rfl).concludes, fun hlen hwf => holdsLine_grant (holdsLine_endProgram hlen hwf rfl)⟩
    · rw [afterOpening_of_halted (u := changed) hcur hhalt] at hopened
      have hpend := passed hopened rfl
      rw [queued_refused] at hpend
      exact Pends.to_refusesIn onlyServes_one (.inl (not_accepting_of_halted (u := s) hhalt).1) (hpend.mono (by omega))
    · rw [← hcur]
      exact onward hw k hk
    · have hfail := openingEnded_failed (u := programOver s .l sec 1 data .failed) ho (accepting_of_writable hw)
      rw [show (programOver s .l sec 1 data .failed).lw.current = some cur from hcur,
        beginOpening_of_none (s := openingLost (programOver s .l sec 1 data .failed) o) (openingLost_blankless hblank)]
        at hfail
      have hpend := failing hfail rfl
      rw [queued_refused] at hpend
      exact Pends.to_refusesIn onlyServes_one (.inr (.inr (.inr hun))) (hpend.mono (by omega))
    · obtain ⟨hacc, hst⟩ := not_accepting_of_halted (u := programOver s .l sec 1 data .failed) hhalt
      have hfail := openingEnded_failed_of_not_accepting (u := programOver s .l sec 1 data .failed) ho hacc
      rw [hst, refuseCurrent_of_some (u := openingLost (programOver s .l sec 1 data .failed) o) hcur] at hfail
      have hpend := failing hfail rfl
      rw [queued_refused] at hpend
      exact Pends.to_refusesIn onlyServes_one (.inl (not_accepting_of_halted (u := s) hhalt).1) (hpend.mono (by omega))
  · have hopened := openingEnded_of_nobody (u := programOver s .l sec 1 data .passed) ho hp hne hcur
    have hpend := passed hopened rfl
    rw [queued_serve] at hpend
    refine ⟨fun hun => ?_, fun x r hw hfit hc hr => ?_, fun k hw hk => ?_, fun hun hno => ?_⟩
    · exact (Pends.serve_rests (n := 399) hpend (.inr (.inr (.inr hun)))).concludes
    · have hturn := serve_of_turn (x := x) (r := r) (u := sectorLeft (programOver s .l sec 1 data .passed) o p) hw rfl rfl
        hc hr
      have hserve := hturn.trans (serveStream_of_fits (p := firstLine o) hw rfl hfit)
      have hplaced := Pends.handle (n := 399) hpend hserve
      rw [queued_nil] at hplaced
      exact hplaced.concludes
    · rw [← hcur]
      exact onward hw k hk
    · have hlost : (programOver s .l sec 1 data .failed).openingEnded .failed =
          ({ gone with lw := freed }, [.serve]) := by
        have hnone : (openingLost (programOver s .l sec 1 data .failed) o).lw = freed := by
          change { s.lw with opening := none } = { s.lw with current := none, opening := none }
          rw [← hcur]
        cases hacc : s.accepting with
        | true =>
          have hblank : blankless := hno.resolve_right fun ⟨st, hhalt⟩ =>
            Bool.false_ne_true ((not_accepting_of_halted hhalt).1.symm.trans hacc)
          refine (openingEnded_failed (u := programOver s .l sec 1 data .failed) ho hacc).trans ?_
          rw [show (programOver s .l sec 1 data .failed).lw.current = none from hcur,
            beginOpening_of_nobody (u := openingLost (programOver s .l sec 1 data .failed) o)
              (openingLost_blankless hblank)]
          rfl
        | false =>
          refine (openingEnded_failed_of_not_accepting (u := programOver s .l sec 1 data .failed) ho hacc).trans ?_
          unfold State.refuseCurrent
          rw [show (openingLost (programOver s .l sec 1 data .failed) o).lw.current = none from hcur]
          dsimp only
          refine congrArg (·, [Signal.serve]) ?_
          rw [← hnone]
          rfl
      have hfail := failing hlost rfl
      rw [queued_serve] at hfail
      exact (Pends.serve_rests (n := 399) hfail (.inr (.inr (.inr hun)))).concludes

end Sys2Proof.Machine
end

section
/-! SUPPORT. The walk of a victim as a READ of it ends: what refers to a line, what becomes of a record, and where the
walk goes on (R16, R57, R88–R91). -/

namespace Sys2Proof.Machine

set_option Elab.async false

/-! ### References and kinds -/

theorem isOldest_iff {s : State} {v : SectorIx} : s.isOldest v = true ↔ oldestInLog s v := by
  unfold State.isOldest
  rw [List.all_eq_true]
  refine ⟨fun h j hj hearlier => ?_, fun h j _ => ?_⟩
  · have hall := h j (List.mem_finRange j)
    have hlog : (s.sector j).st.holdsLog = true := by rcases hj with hj | hj | hj <;> rw [hj] <;> rfl
    rw [hlog, older_iff.mpr hearlier] at hall
    exact nomatch hall
  · rw [Bool.or_eq_true, Bool.not_eq_true', Bool.not_eq_true', ← Bool.not_eq_true, ← Bool.not_eq_true, older_iff]
    by_cases hlog : (s.sector j).st.holdsLog = true
    · refine .inr (h j ?_)
      revert hlog
      cases (s.sector j).st <;> simp [SectorState.holdsLog]
    · exact .inl hlog

theorem retiredAt_some {s : State} {l : Loc} {j : SectorIx} (h : s.retiredAt l = some j) :
    (s.sector j).st = .retired ∧ (s.sector j).retireLoc = some l := by
  have hj := List.find?_some h
  rwa [Bool.and_eq_true, decide_eq_true_iff, decide_eq_true_iff] at hj

theorem retiredAt_isSome {s : State} {l : Loc} : (s.retiredAt l).isSome = true ↔
    ∃ j, (s.sector j).st = .retired ∧ (s.sector j).retireLoc = some l := by
  unfold State.retiredAt
  rw [List.find?_isSome]
  simp only [Bool.and_eq_true, decide_eq_true_iff]
  exact ⟨fun ⟨j, _, hj⟩ => ⟨j, hj⟩, fun ⟨j, hj⟩ => ⟨j, List.mem_finRange j, hj⟩⟩

theorem refAt_none {s : State} {l : Loc} : s.refAt l = none ↔ s.entryAt l = none ∧ s.retiredAt l = none := by
  unfold State.refAt
  cases s.entryAt l with
  | none => simp
  | some d => simp

/-- A valid record names a sector of the array (R9, R181). -/
theorem operand_lt {p : Nat} {rr : ReadResult} {rec : Record} (h : validRecordAt p rr = some rec)
    (hk : rec.kind = .reclaimEnd) : rec.operand < 32 := by
  unfold validRecordAt at h
  split at h
  · exact nomatch h
  · split at h
    · rename_i hall
      cases h
      simp only [Bool.and_eq_true] at hall
      obtain ⟨⟨-, hfit⟩, -⟩ := hall
      unfold Record.operandsFit at hfit
      rw [hk] at hfit
      simp only [Bool.and_eq_true, decide_eq_true_iff] at hfit
      exact hfit.1
    · exact nomatch h

section Kinds
variable {s : State} {l : Loc} {rec : Record}

theorem entryOutside_iff {v : SectorIx} {lo hi : Nat} : s.entryOutside v lo hi = true ↔
    ∃ d ∈ s.dir, lo ≤ d.seq ∧ d.seq < hi ∧ d.loc.sector ≠ v := by
  unfold State.entryOutside
  simp only [List.any_eq_true, Bool.and_eq_true, decide_eq_true_iff, and_assoc]

theorem named_iff (h : rec.operand < 32) : (decide ((s.sector rec.named).st = .retired) &&
    (s.sector rec.named).retireLoc.isNone) = true ↔
      ∃ j : SectorIx, j.val = rec.operand ∧ (s.sector j).st = .retired ∧ (s.sector j).retireLoc = none := by
  rw [Bool.and_eq_true, decide_eq_true_iff, Option.isNone_iff_eq_none]
  have hnamed : rec.named.val = rec.operand := Nat.mod_eq_of_lt h
  refine ⟨fun hj => ⟨rec.named, hnamed, hj⟩, fun ⟨j, hj, hret⟩ => ?_⟩
  rwa [show rec.named = j from Fin.ext (hnamed.trans hj.symm)]

/-- What the walk copies (R16, R89). -/
theorem copies_iff (h : rec.kind = .reclaimEnd → rec.operand < 32) : s.copies l rec = true ↔ copied s l rec := by
  unfold State.copies copied
  cases hk : rec.kind with
  | value => cases s.entryAt l <;> simp
  | tombstone => cases s.entryAt l <;> simp [isOldest_iff, ← Bool.not_eq_true, and_assoc]
  | retire => simp [retiredAt_isSome]
  | commit => simp [entryOutside_iff]
  | reclaimEnd => simpa using named_iff (h hk)
  | reclaimBegin => simp

/-- What the walk drops (R57, R89). -/
theorem drops_iff : s.drops l rec = true ↔ dropped s l rec := by
  unfold State.drops dropped
  cases s.entryAt l <;> simp [isOldest_iff, and_assoc]

end Kinds

/-! ### Where the walk goes on -/

section Walk
variable {s u : State} {v : SectorIx} {st : Status}

/-- A store that is not MOUNTED ends the walk (R100). -/
theorem walk_of_halted (h : halted u st) : u.walk v = (u, [.unitEnd st false]) := by
  unfold State.walk State.haltStatus
  rcases h with ⟨hst, -, rfl⟩ | ⟨hst, -, rfl⟩ <;> rw [hst]

/-- Past the record area RECLAIM-END is offered (R88, R92). -/
theorem walk_of_end (hw : u.writable) (hcur : 256 ≤ u.eng.cursor) (hseq : u.lw.seqCtr + 1 ≤ 0xFFFFFFFF) : u.walk v =
    ({ u with
      eng := { u.eng with st := .ending }
      lw := LogWriter.readied { u.lw with seqCtr := u.lw.seqCtr + 1 } .reclaim
        (reclaimEndRecord v u.eng.copyCount u.lw.seqCtr) }, [.serve]) := by
  obtain ⟨hst, -⟩ := id hw
  unfold State.walk State.haltStatus
  rw [hst]
  dsimp only
  rw [if_neg (not_lt.mpr hcur), takeSeq_of_room hseq]
  dsimp only
  rw [offer_of_accepting]
  · rfl
  · exact accepting_of_writable hw

theorem walk_of_end_refused (hst : u.store.st = .mounted) (hcur : 256 ≤ u.eng.cursor)
    (hseq : 0xFFFFFFFF < u.lw.seqCtr + 1) : u.walk v = (u, [.leaveMounted .sequence, .unitEnd .readOnly false]) := by
  unfold State.walk State.haltStatus
  rw [hst]
  dsimp only
  rw [if_neg (not_lt.mpr hcur), takeSeq_of_refused hseq]

/-- The walk goes on from a line of the record area (R88). -/
theorem walk_goes_on {g : Engine} (hst : u.store.st = .mounted) (hcur : g.cursor < 256) :
    State.walk { u with eng := g } v = (walksOn u g v, []) :=
  walk_of_mounted (u := { u with eng := g }) hst hcur

/-! ### What a READ of the walk leaves pending -/

variable {r : ReadOutcome} {p : Nat} {rr : ReadResult} {n : Nat}

theorem exec_reclaimReadEnd (h : walkReads s r v p rr n) :
    exec (.reclaimReadEnd r) s = conclude ((readOver s n .c).walkRead v rr) := by
  obtain ⟨hst, hsector, -, len, ⟨hbusy, hslot⟩, hrr, hn⟩ := h
  obtain ⟨d, hd⟩ := readRecord_drawn s v p len r
  have hover : (s.readRecord v p len r).2.release .c = readOver s n .c := by
    rw [hd] at hn ⊢
    subst hn
    rfl
  change execReclaimReadEnd r s = _
  unfold execReclaimReadEnd
  rw [inHand_of hbusy hslot]
  dsimp only
  rw [hover, hrr]
  exact congrArg conclude (if_pos ⟨hst, hsector⟩)

theorem pends_of_walk (h : walkReads s r v p rr n) {a : Answer} (ha : (readOver s n .c).walkRead v rr = a)
    (hflash : a.1.flash = s.flash) :
    Pends (.reclaimReadEnd r) s nowhere lookAhead 400 (queued a.2 []) a.1 :=
  pends_of_conclude (by rw [exec_reclaimReadEnd h, ha]) (bytesKept_of_flash hflash nowhere)

/-- The walk that goes on ends the step: the engine is at work (R84). -/
theorem endsIn_of_walk (h : walkReads s r v p rr n) {g : Engine} (hg : g.st = .copying)
    (ha : (readOver s n .c).walkRead v rr = (walksOn u g v, [])) (hflash : u.flash = s.flash) :
    endsIn (.reclaimReadEnd r) s (walksOn u g v) nowhere := by
  have hpend := pends_of_walk h ha hflash
  rw [queued_nil] at hpend
  refine hpend.ends_quiet closesQuiet_lookAhead (rests_of_busy ?_)
  rw [show (walksOn u g v).eng.st = g.st from rfl, hg]
  exact nofun

/-- A line that holds nothing (R88). -/
theorem walkRead_of_blank (hcur : u.eng.cursor = p) (hb : isBlankLine rr.bytes = true)
    (hr : u.refAt { sector := v, line := p } = none) : u.walkRead v rr = (u.advance (p + 1)).walk v := by
  unfold State.walkRead
  dsimp only
  rw [hcur, hb, hr]
  rfl

theorem walkRead_of_record (hcur : u.eng.cursor = p)
    (hb : ¬ (isBlankLine rr.bytes = true ∧ u.refAt { sector := v, line := p } = none)) {rec : Record}
    (hrec : validRecordAt p rr = some rec) : u.walkRead v rr = u.walkRecord { sector := v, line := p } rec := by
  have hno : ¬ (isBlankLine rr.bytes && (u.refAt { sector := v, line := p }).isNone) = true := by
    rwa [Bool.and_eq_true, Option.isNone_iff_eq_none]
  unfold State.walkRead
  dsimp only
  rw [hcur, if_neg hno, hrec]

/-- A line that reads as nothing, read again (R91). -/
theorem walkRead_again (hcur : u.eng.cursor = p)
    (hb : ¬ (isBlankLine rr.bytes = true ∧ u.refAt { sector := v, line := p } = none))
    (hrec : validRecordAt p rr = none) (hat : u.eng.attempts = 0) : u.walkRead v rr =
      State.walk { u with eng := { u.eng with attempts := 1, firstRef := u.refAt { sector := v, line := p } } } v := by
  have hno : ¬ (isBlankLine rr.bytes && (u.refAt { sector := v, line := p }).isNone) = true := by
    rwa [Bool.and_eq_true, Option.isNone_iff_eq_none]
  unfold State.walkRead
  dsimp only
  rw [hcur, if_neg hno, hrec]
  exact if_pos hat

/-- The second failure (R91). -/
theorem walkRead_lost (hcur : u.eng.cursor = p)
    (hb : ¬ (isBlankLine rr.bytes = true ∧ u.refAt { sector := v, line := p } = none))
    (hrec : validRecordAt p rr = none) (hat : u.eng.attempts ≠ 0) :
    u.walkRead v rr = u.walkLost { sector := v, line := p } := by
  have hno : ¬ (isBlankLine rr.bytes && (u.refAt { sector := v, line := p }).isNone) = true := by
    rwa [Bool.and_eq_true, Option.isNone_iff_eq_none]
  unfold State.walkRead
  dsimp only
  rw [hcur, if_neg hno, hrec]
  exact if_neg hat

end Walk

/-! ### Entries removed -/

section Removed
variable {u : State} {d : DirEntry} {k : Key}

theorem entryAt_loc {l : Loc} (h : u.entryAt l = some d) : d.loc = l := by
  have hloc := List.find?_some h
  exact of_decide_eq_true hloc

theorem giveLines_of_le {e : SectorEntry} {n : Nat} (h : n ≤ e.live) :
    e.giveLines n = { e with live := e.live - n, dead := e.dead + n } := by
  unfold SectorEntry.giveLines
  rw [Nat.min_eq_left h]

theorem removeEntry_eq (hk : u.entry k = some d) : u.removeEntry d =
    { u.modSector d.loc.sector (SectorEntry.giveLines d.lines) with
      dir := u.dir.filter (fun y => decide (y.key ≠ k))
      eng := { u.eng with stalled := u.eng.stalled && decide ((u.sector d.loc.sector).st ≠ .sealed) } } := by
  have hkey : d.key = k := (dirFind_some hk).2
  unfold State.removeEntry
  rw [giveUp_eq, hkey]
  rfl

theorem loseRecord_of_some {seq : Nat} (hk : u.entry k = some d) (hseq : d.seq = seq) :
    u.loseRecord k seq = u.removeEntry d := by
  unfold State.loseRecord
  rw [hk]
  exact if_pos hseq

theorem loseRecord_of_superseded {seq : Nat} (h : ∀ d, u.entry k = some d → d.seq ≠ seq) : u.loseRecord k seq = u := by
  unfold State.loseRecord
  cases hk : u.entry k with
  | none => rfl
  | some d => exact if_neg (h d hk)

theorem dropTombstone_of_some {seq : Nat} (hk : u.entry k = some d) (hp : d.present = false) (hseq : d.seq = seq) :
    u.dropTombstone k seq = u.removeEntry d := by
  unfold State.dropTombstone
  rw [hk]
  dsimp only
  rw [hp, hseq]
  exact if_pos (decide_eq_true rfl)

end Removed

/-- What is dropped is not copied (R89). -/
theorem not_copied_of_dropped {s : State} {l : Loc} {rec : Record} (h : dropped s l rec) : ¬ copied s l rec := by
  obtain ⟨hk, d, hd, -, -, hold, hstale⟩ := h
  have stale : ∀ d', s.entryAt l = some d' → d'.stale = false := fun d' hd' => by
    rw [hd] at hd'
    exact Option.some.inj hd' ▸ hstale
  unfold copied
  rw [hk]
  rintro (⟨hx, -⟩ | ⟨-, d', hd', -, -, hno⟩ | ⟨hx, -⟩ | ⟨hx, -⟩ | ⟨hx, -⟩)
  · exact nomatch hx
  · rcases hno with hno | hno
    · exact hno hold
    · rw [stale d' hd'] at hno
      exact nomatch hno
  all_goals exact nomatch hx

section Records
variable {s : State} {l : Loc} {rec : Record} {p : Nat} {rr : ReadResult}

theorem walkRecord_copied (hrec : validRecordAt p rr = some rec) (h : copied s l rec) :
    s.walkRecord l rec = s.offer .reclaim (copyOf rec) :=
  if_pos ((copies_iff (operand_lt hrec)).mpr h)

theorem walkRecord_dropped (hrec : validRecordAt p rr = some rec) (h : dropped s l rec) : s.walkRecord l rec =
    ((s.dropTombstone rec.key rec.seq).advance (l.line + rec.lines)).walk l.sector :=
  (if_neg ((copies_iff (operand_lt hrec)).not.mpr (not_copied_of_dropped h))).trans (if_pos (drops_iff.mpr h))

theorem walkRecord_passed (hrec : validRecordAt p rr = some rec) (hc : ¬ copied s l rec) (hd : ¬ dropped s l rec) :
    s.walkRecord l rec = (s.advance (l.line + rec.lines)).walk l.sector :=
  (if_neg ((copies_iff (operand_lt hrec)).not.mpr hc)).trans (if_neg (drops_iff.not.mpr hd))

end Records

/-- Settles O50, by what refers to the record. -/
theorem walkRecords : Obligations.WalkRecords := by
  intro s r v p rr n rec hwalk hst hblank hrec gone l
  obtain ⟨hcopying, -, hcur, -⟩ := id hwalk
  have hread : gone.walkRead v rr = gone.walkRecord l rec :=
    walkRead_of_record (u := gone) hcur (fun hb => Bool.false_ne_true (hblank.symm.trans hb.1)) hrec
  refine ⟨fun hc hstop hlow => ?_, fun d hdrop hat hk hrecl hlines hend => ?_, fun hc hd hend => ?_⟩
  · rw [walkRecord_copied (s := gone) hrec hc, offer_of_accepting (s := gone) (accepting_of_writable ⟨hst, hlow, hstop⟩)]
      at hread
    have hpend := pends_of_walk hwalk hread rfl
    rw [queued_serve] at hpend
    refine Pends.to_offersIn (u := gone) (w := s.lw) (hpend.mono (by omega)) hst hlow hstop ?_
    rw [show gone.eng.st = .copying from hcopying]
    exact nofun
  · obtain ⟨-, d', hat', hpresent, hseq, -⟩ := id hdrop
    cases Option.some.inj (hat.symm.trans hat')
    have hsector : d.loc.sector = v := congrArg Loc.sector (entryAt_loc hat)
    rw [walkRecord_dropped (s := gone) hrec hdrop, dropTombstone_of_some (u := gone) hk hpresent hseq,
      removeEntry_eq (u := gone) hk, hsector] at hread
    refine endsIn_of_walk hwalk hcopying (hread.trans ?_) rfl
    have hst' : decide ((gone.sector v).st ≠ .sealed) = true := decide_eq_true (by
      rw [show (gone.sector v).st = .reclaiming from hrecl]
      exact nofun)
    have hgive : gone.modSector v (SectorEntry.giveLines d.lines) = { gone with
        sectors := s.sectors.set v.val { s.sector v with
          live := (s.sector v).live - d.lines, dead := (s.sector v).dead + d.lines } v.isLt } := by
      unfold State.modSector
      rw [giveLines_of_le (e := gone.sectors.get v) hlines]
      rfl
    rw [hst', Bool.and_true, hgive]
    exact walk_goes_on (u := { gone with
      dir := s.dir.filter (fun y => decide (y.key ≠ rec.key))
      sectors := s.sectors.set v.val { s.sector v with
        live := (s.sector v).live - d.lines, dead := (s.sector v).dead + d.lines } v.isLt })
      (g := cursorAt s.eng (p + rec.lines)) hst hend
  · rw [walkRecord_passed (s := gone) hrec hc hd] at hread
    exact endsIn_of_walk hwalk hcopying
      (hread.trans (walk_goes_on (u := gone) (g := cursorAt s.eng (p + rec.lines)) hst hend)) rfl

end Sys2Proof.Machine
end

section
/-! SUPPORT. A READ of the walk that returns no valid record, and what it takes from the directory and the retired list
(R88, R91, R92, R100). -/

namespace Sys2Proof.Machine

set_option Elab.async false

/-- A grant keeps what each slot asks for (R107). -/
theorem grant_slot_op {u : State} {x : SlotId} {op : ArrayOp} {b : Bool}
    (h : u.arr.slot x = some { op := op, inProgress := b }) :
    ∃ b', u.grant.arr.slot x = some { op := op, inProgress := b' } := by
  rcases grant_cases u with ⟨y, n, he, hgrant⟩ | ⟨-, hslots⟩
  · obtain ⟨op', hy⟩ := eligible_waits he
    rw [hgrant, start_slot hy]
    by_cases hxy : x = y
    · subst hxy
      cases h.symm.trans hy
      exact ⟨true, if_pos rfl⟩
    · exact ⟨b, (if_neg hxy).trans h⟩
  · exact ⟨b, (hslots x).trans h⟩

/-! ### The second failure -/

section Lost
variable {u : State} {l : Loc}

theorem walkLost_entry {k : Key} {q m : Nat} (h : u.eng.firstRef = some (.entry k q m)) : u.walkLost l =
    (((u.loseRecord k q).raise .readFault).advance (l.line + m)).walk l.sector := by
  unfold State.walkLost
  rw [h]

theorem walkLost_retireLoc {j : SectorIx} (h : u.eng.firstRef = some (.retireLoc j)) (hloc : (u.sector j).retireLoc = some l) :
    u.walkLost l = ((((u.modSector j fun e => { e with retireLoc := none }).modSector l.sector
      (SectorEntry.giveLines 1)).raise .readFault).advance (l.line + 1)).walk l.sector := by
  unfold State.walkLost
  rw [h]
  dsimp only
  rw [if_pos hloc]

theorem walkLost_retireLoc_moved {j : SectorIx} (h : u.eng.firstRef = some (.retireLoc j))
    (hloc : (u.sector j).retireLoc ≠ some l) :
    u.walkLost l = ((u.raise .readFault).advance (l.line + 1)).walk l.sector := by
  unfold State.walkLost
  rw [h]
  dsimp only
  rw [if_neg hloc]

theorem walkLost_torn (h : u.eng.firstRef = none) : u.walkLost l = (u.advance (l.line + 1)).walk l.sector := by
  unfold State.walkLost
  rw [h]

/-- A record is lost at its second failed read (R58, R91). -/
def entryLost (u : State) (d : DirEntry) (k : Key) : State :=
  { u.modSector d.loc.sector (SectorEntry.giveLines d.lines) with
    dir := u.dir.filter (fun y => decide (y.key ≠ k))
    win := u.win.raised .readFault
    eng := { u.eng with stalled := u.eng.stalled && decide ((u.sector d.loc.sector).st ≠ .sealed) } }

theorem loseRecord_raise {d : DirEntry} {k : Key} {q : Nat} (hk : u.entry k = some d) (hq : d.seq = q) :
    (u.loseRecord k q).raise .readFault = entryLost u d k := by
  rw [loseRecord_of_some hk hq, removeEntry_eq hk]
  rfl

theorem entryLost_stalled {d : DirEntry} {k : Key} (hk : u.entry k = some d) :
    stalledAfter u [k] (entryLost u d k).eng.stalled := by
  unfold entryLost stalledAfter
  simp [hk]

theorem entryLost_sector (d : DirEntry) (k : Key) (j : SectorIx) : (entryLost u d k).sector j =
    if j = d.loc.sector then (u.sector j).giveLines d.lines else u.sector j :=
  modSector_sector u _ _ j

/-- A RETIRE location that named a lost line is none, and the line dead (R91). -/
def locationTaken (u : State) (j v : SectorIx) : State :=
  let named : SectorEntry := { u.sector j with retireLoc := none }
  let given : SectorEntry := { u.sector v with live := (u.sector v).live - 1, dead := (u.sector v).dead + 1 }
  { u with sectors := (u.sectors.set j.val named j.isLt).set v.val given v.isLt }

theorem locationTaken_eq {j v : SectorIx} (hj : j ≠ v) (hlive : 1 ≤ (u.sector v).live) :
    (u.modSector j fun e => { e with retireLoc := none }).modSector v (SectorEntry.giveLines 1) =
      locationTaken u j v := by
  have hget : (u.sectors.set j.val { u.sector j with retireLoc := none } j.isLt).get v = u.sector v := by
    rw [vector_get_set, if_neg (Ne.symm hj)]
    rfl
  unfold locationTaken
  rw [← giveLines_of_le hlive, ← hget]
  rfl

end Lost

/-! ### A halted walk -/

section Halted
variable {s : State} {r : ReadOutcome} {v : SectorIx} {p : Nat} {rr : ReadResult} {n : Nat} {st : Status}

/-- A walk that a halted store ends (R100). -/
theorem unitEndsIn_of_walk (hwalk : walkReads s r v p rr n) (hhalt : halted s st) {u : State} (hstore : u.store = s.store)
    (hlw : u.lw = s.lw) (hflash : u.flash = s.flash) (ha : (readOver s n .c).walkRead v rr = u.walk v) :
    unitEndsIn (.reclaimReadEnd r) s u v st nowhere := by
  have hu : halted u st := by
    unfold halted
    rw [hstore, hlw]
    exact hhalt
  have hpend := pends_of_walk hwalk (ha.trans (walk_of_halted hu)) hflash
  rw [queued_inner (by simp [Signal.isApart])] at hpend
  exact Pends.to_unitEndsIn (hpend.mono (by omega))

/-- A copy refused by a halted store ends the unit (R90, R100). -/
theorem unitEndsIn_of_copy (hwalk : walkReads s r v p rr n) (hhalt : halted s st) (rec : Record)
    (ha : (readOver s n .c).walkRead v rr = State.offer (readOver s n .c) .reclaim rec) :
    unitEndsIn (.reclaimReadEnd r) s (readOver s n .c) v st nowhere := by
  obtain ⟨hcopying, hsector, -⟩ := id hwalk
  obtain ⟨hacc, hst⟩ := not_accepting_of_halted (u := readOver s n .c) hhalt
  rw [offer_of_not_accepting hacc, hst] at ha
  have hpend := pends_of_walk hwalk ha rfl
  rw [queued_inner (by simp [Signal.isApart])] at hpend
  have hno : decide (st = .noSpace) = false := decide_eq_false (by
    rcases hhalt with ⟨-, -, rfl⟩ | ⟨-, -, rfl⟩ <;> exact nofun)
  have hrefused : (readOver s n .c).handle (.refused .reclaim st) = (readOver s n .c, [.unitEnd st false]) := by
    change State.reclaimRefused _ _ = _
    unfold State.reclaimRefused
    rw [show (readOver s n .c).eng.sector = some v from hsector]
    dsimp only
    rw [show (readOver s n .c).eng.st = .copying from hcopying]
    dsimp only
    rw [hno]
  have hend := Pends.handle (n := 399) hpend hrefused
  rw [queued_inner (by simp [Signal.isApart])] at hend
  exact Pends.to_unitEndsIn (hend.mono (by omega))

end Halted

/-! ### The claim -/

section Claim
variable {s : State} {r : ReadOutcome} {v : SectorIx} {p : Nat} {rr : ReadResult} {n : Nat}

/-- A record lost: the state, and the READ that follows (R58, R91). -/
theorem lost_entry_ends (hwalk : walkReads s r v p rr n) (hst : s.store.st = .mounted) {k : Key} {d : DirEntry} {m : Nat}
    (hk : s.entry k = some d) (hon : p + m < 256)
    (hread : (readOver s n .c).walkRead v rr = ((entryLost (readOver s n .c) d k).advance (p + m)).walk v) :
    ∃ t, exec (.reclaimReadEnd r) s = .next t ∧ t.dir = s.dir.filter (fun x => decide (x.key ≠ k)) ∧
      t.win = s.win.raised .readFault ∧
      (∃ b, t.eng = { cursorAt s.eng (p + m) with stalled := b } ∧ stalledAfter s [k] b) ∧
      (∃ b, t.arr.c = some { op := .readRecord v (p + m) .header, inProgress := b }) ∧
      (∀ j, j ≠ d.loc.sector → t.sector j = s.sector j) ∧
      (d.lines ≤ (s.sector d.loc.sector).live →
        (t.sector d.loc.sector).live + d.lines = (s.sector d.loc.sector).live ∧
          (t.sector d.loc.sector).dead = (s.sector d.loc.sector).dead + d.lines) ∧
      t.lw = s.lw ∧ t.tm = s.tm ∧ t.cu = s.cu ∧ t.store = s.store ∧ bytesKept s t nowhere := by
  obtain ⟨hcopying, -⟩ := id hwalk
  have hlost := entryLost_sector (u := readOver s n .c) d k
  obtain ⟨hexec, hrest, hbytes⟩ := endsIn_of_walk hwalk (u := entryLost (readOver s n .c) d k)
    (g := cursorAt (entryLost (readOver s n .c) d k).eng (p + m)) hcopying (hread.trans (walk_goes_on hst hon)) rfl
  have hsector (j : SectorIx) : (walksOn (entryLost (readOver s n .c) d k)
      (cursorAt (entryLost (readOver s n .c) d k).eng (p + m)) v).grant.sector j =
      if j = d.loc.sector then ((readOver s n .c).sector j).giveLines d.lines else (readOver s n .c).sector j := by
    rw [hrest]
    exact hlost j
  refine ⟨_, hexec, ?_, ?_, ⟨_, ?_, entryLost_stalled (u := readOver s n .c) hk⟩, grant_slot_op (x := .c) (put_slot _ .c .c _),
    fun j hj => ?_, fun hlines => ?_, ?_, ?_, ?_, ?_, hbytes⟩
  · rw [hrest]
    rfl
  · rw [hrest]
    rfl
  · rw [hrest]
    rfl
  · rw [hsector, if_neg hj]
    rfl
  · rw [hsector, if_pos rfl, giveLines_of_le (e := (readOver s n .c).sector d.loc.sector) hlines]
    exact ⟨Nat.sub_add_cancel hlines, rfl⟩
  all_goals
    rw [hrest]
    rfl

end Claim

/-- Settles O51, by the line read, its first or second failure, and the store. -/
theorem reclaimReadEnd : Obligations.ReclaimReadEnd := by
  intro s r v p rr n hwalk gone l on blank ref
  obtain ⟨hcopying, hsector, hcur, -⟩ := id hwalk
  have hblank : isBlankLine rr.bytes = true ∧ gone.refAt l = none ↔ blank := and_congr_right' (refAt_none (s := gone))
  have onBlank (hb : blank) : gone.walkRead v rr = (gone.advance (p + 1)).walk v :=
    walkRead_of_blank (u := gone) hcur (hblank.mpr hb).1 (hblank.mpr hb).2
  have onRecord (hb : ¬ blank) {rec : Record} (hrec : validRecordAt p rr = some rec) :
      gone.walkRead v rr = gone.walkRecord l rec := walkRead_of_record (u := gone) hcur (hblank.not.mpr hb) hrec
  have onAgain (hb : ¬ blank) (hrec : validRecordAt p rr = none) (hat : s.eng.attempts = 0) :=
    walkRead_again (u := gone) (v := v) hcur (hblank.not.mpr hb) hrec hat
  have onLost (hb : ¬ blank) (hrec : validRecordAt p rr = none) (hat : s.eng.attempts ≠ 0) :
      gone.walkRead v rr = gone.walkLost l := walkRead_lost (u := gone) hcur (hblank.not.mpr hb) hrec hat
  refine ⟨fun st hhalt hcase => ?_, fun hst => ⟨fun hb hon => ?_, fun hb hend hstop hlow => ⟨fun hseq => ?_, fun hseq => ?_⟩,
    fun hrec hb hat hon => ?_, fun k q m d hrec hb hat href hk hq hon => ?_, fun k q m hrec hb hat href hno hon => ?_,
    fun j hrec hb hat href hon => ⟨fun hloc hj hlive => ?_, fun hloc => ?_⟩, fun hrec hb hat href hon => ?_⟩⟩
  · rcases hcase with hb | ⟨rec, hb, hrec, hdrop⟩ | ⟨hb, hrec, hat | href⟩
    · exact unitEndsIn_of_walk (u := gone.advance (p + 1)) hwalk hhalt rfl rfl rfl (onBlank hb)
    · by_cases hc : copied s l rec
      · exact unitEndsIn_of_copy hwalk hhalt _ ((onRecord hb hrec).trans (walkRecord_copied (s := gone) hrec hc))
      · exact unitEndsIn_of_walk (u := gone.advance (p + rec.lines)) hwalk hhalt rfl rfl rfl
          ((onRecord hb hrec).trans (walkRecord_passed (s := gone) hrec hc hdrop))
    · exact unitEndsIn_of_walk (u := { gone with eng := { s.eng with attempts := 1, firstRef := gone.refAt l } }) hwalk
          hhalt rfl rfl rfl (onAgain hb hrec hat)
    · by_cases hat : s.eng.attempts = 0
      · exact unitEndsIn_of_walk (u := { gone with eng := { s.eng with attempts := 1, firstRef := gone.refAt l } }) hwalk
          hhalt rfl rfl rfl (onAgain hb hrec hat)
      · exact unitEndsIn_of_walk (u := gone.advance (p + 1)) hwalk hhalt rfl rfl rfl
          ((onLost hb hrec hat).trans (walkLost_torn (u := gone) href))
  · exact endsIn_of_walk hwalk hcopying ((onBlank hb).trans (walk_goes_on (u := gone) (g := on (p + 1)) hst hon)) rfl
  · have hread := (onBlank hb).trans (walk_of_end (u := gone.advance (p + 1)) ⟨hst, hlow, hstop⟩ hend hseq)
    have hpend := pends_of_walk hwalk hread rfl
    rw [queued_serve] at hpend
    exact Pends.to_offersIn (u := { gone with eng := { on (p + 1) with st := .ending } })
      (w := { s.lw with seqCtr := s.lw.seqCtr + 1 }) (hpend.mono (by omega)) hst hlow hstop nofun
  · have hread := (onBlank hb).trans (walk_of_end_refused (u := gone.advance (p + 1)) hst hend hseq)
    have hpend := pends_of_walk hwalk hread rfl
    rw [queued_halt] at hpend
    exact Pends.to_haltsIn (u := { gone with eng := on (p + 1) }) (hpend.mono (by omega))
  · have href : gone.refAt l = ref := by
      unfold State.refAt
      dsimp only [ref]
      rw [show gone.entryAt l = s.entryAt l from rfl]
      cases s.entryAt l <;> rfl
    rw [← href]
    exact endsIn_of_walk hwalk hcopying ((onAgain hb hrec hat).trans (walk_goes_on (u := gone)
      (g := { s.eng with attempts := 1, firstRef := gone.refAt l }) hst (by rw [← hcur] at hon; exact hon))) rfl
  · refine lost_entry_ends hwalk hst hk hon ((onLost hb hrec hat).trans ?_)
    rw [walkLost_entry (u := gone) href, loseRecord_raise (u := gone) hk hq]
  · refine endsIn_of_walk hwalk hcopying ((onLost hb hrec hat).trans ?_) rfl
    rw [walkLost_entry (u := gone) href, loseRecord_of_superseded (u := gone) hno]
    exact walk_goes_on (u := { gone with win := s.win.raised .readFault }) (g := on (p + m)) hst hon
  · refine endsIn_of_walk hwalk hcopying ((onLost hb hrec hat).trans ?_) rfl
    rw [walkLost_retireLoc (u := gone) href hloc, locationTaken_eq (u := gone) hj hlive]
    exact walk_goes_on (u := { locationTaken gone j v with win := s.win.raised .readFault }) (g := on (p + 1)) hst hon
  · refine endsIn_of_walk hwalk hcopying ((onLost hb hrec hat).trans ?_) rfl
    rw [walkLost_retireLoc_moved (u := gone) href hloc]
    exact walk_goes_on (u := { gone with win := s.win.raised .readFault }) (g := on (p + 1)) hst hon
  · exact endsIn_of_walk hwalk hcopying (((onLost hb hrec hat).trans (walkLost_torn (u := gone) href)).trans
      (walk_goes_on (u := gone) (g := on (p + 1)) hst hon)) rfl

end Sys2Proof.Machine
end

section
/-! SUPPORT. A copy as it is reported written: what moves to it, and where the walk goes on (R56, R57, R90, R100). -/

namespace Sys2Proof.Machine

set_option Elab.async false

/-! ### What moves to a copy -/

section Moves
variable {u : State} {k : Key} {seq : Nat} {x : Loc} {d : DirEntry}

/-- The entry that carries a copy's sequence takes it as a record of its own (R56). -/
theorem relocate_of_same (hk : u.entry k = some d) (hseq : d.seq = seq) :
    u.relocate k seq x = u.takeRecord k d.present x d.lines d.length d.seq := by
  have hkey : d.key = k := (dirFind_some hk).2
  unfold State.relocate
  rw [takeRecord_eq]
  unfold State.giveUpOf staleTaken
  rw [hk]
  dsimp only
  rw [if_pos hseq, ← hkey]
  rfl

/-- A DELETED entry of a higher sequence in an older sector takes the stale-copy mark (R57). -/
theorem relocate_of_stale (hk : u.entry k = some d) (hp : d.present = false) (hseq : seq < d.seq)
    (hold : earlier u d.loc.sector x.sector) :
    u.relocate k seq x = { u with dir := dirPut u.dir { d with stale := true } } := by
  unfold State.relocate State.newerSector
  rw [hk]
  dsimp only
  rw [if_neg (by omega), hp, decide_eq_true hseq, older_iff.mpr hold]
  rfl

/-- Every other entry stands (R56). -/
theorem relocate_of_other (h : ∀ d, u.entry k = some d → d.seq ≠ seq ∧
    (d.present = true ∨ d.seq < seq ∨ ¬ earlier u d.loc.sector x.sector)) : u.relocate k seq x = u := by
  unfold State.relocate State.newerSector
  cases hk : u.entry k with
  | none => rfl
  | some d =>
    obtain ⟨hne, hother⟩ := h d hk
    dsimp only
    rw [if_neg hne, if_neg]
    rw [Bool.and_eq_true, Bool.and_eq_true, Bool.not_eq_true', decide_eq_true_iff, older_iff]
    rintro ⟨⟨hp, hlt⟩, hearlier⟩
    rcases hother with hpresent | hless | hnot
    · rw [hp] at hpresent
      exact nomatch hpresent
    · omega
    · exact hnot hearlier

/-- The RETIRE location that names a line, when one sector has it (R90). -/
theorem retiredAt_of_only {l : Loc} {j : SectorIx} (hst : (u.sector j).st = .retired)
    (hloc : (u.sector j).retireLoc = some l)
    (honly : ∀ i, (u.sector i).st = .retired → (u.sector i).retireLoc = some l → i = j) : u.retiredAt l = some j := by
  obtain ⟨i, hi⟩ := Option.isSome_iff_exists.mp (retiredAt_isSome.mpr ⟨j, hst, hloc⟩)
  obtain ⟨hist, hiloc⟩ := retiredAt_some hi
  rw [hi, honly i hist hiloc]

theorem takeLines_of_le {e : SectorEntry} {n : Nat} (h : n ≤ e.dead) :
    e.takeLines n = { e with live := e.live + n, dead := e.dead - n } := by
  unfold SectorEntry.takeLines
  rw [Nat.min_eq_left h]

/-- A RETIRE location moves to a copy, and its line with it (R90). -/
def locationMoved (u : State) (j v : SectorIx) (x : Loc) : State :=
  let named : SectorEntry := { u.sector j with retireLoc := some x }
  let taken : SectorEntry := { u.sector x.sector with
    live := (u.sector x.sector).live + 1, dead := (u.sector x.sector).dead - 1 }
  let given : SectorEntry := { u.sector v with live := (u.sector v).live - 1, dead := (u.sector v).dead + 1 }
  { u with
    sectors := ((u.sectors.set j.val named j.isLt).set x.sector.val taken x.sector.isLt).set v.val given v.isLt }

theorem locationMoved_eq {j v : SectorIx} (hjx : j ≠ x.sector) (hjv : j ≠ v) (hxv : x.sector ≠ v)
    (hdead : 1 ≤ (u.sector x.sector).dead) (hlive : 1 ≤ (u.sector v).live) :
    ((u.modSector j fun e => { e with retireLoc := some x }).modSector x.sector (SectorEntry.takeLines 1)).modSector v
      (SectorEntry.giveLines 1) = locationMoved u j v x := by
  have hfirst := modSector_sector u j (fun e => { e with retireLoc := some x })
  have hsecond := modSector_sector (u.modSector j fun e => { e with retireLoc := some x }) x.sector
    (SectorEntry.takeLines 1)
  have hx : (u.modSector j fun e => { e with retireLoc := some x }).sectors.get x.sector = u.sector x.sector :=
    (hfirst x.sector).trans (if_neg hjx.symm)
  have hv : ((u.modSector j fun e => { e with retireLoc := some x }).modSector x.sector
      (SectorEntry.takeLines 1)).sectors.get v = u.sector v :=
    (hsecond v).trans ((if_neg hxv.symm).trans ((hfirst v).trans (if_neg hjv.symm)))
  unfold locationMoved
  rw [← giveLines_of_le hlive, ← takeLines_of_le hdead, ← hv, ← hx]
  rfl

end Moves

/-! ### The engine behind a copy -/

/-- A copy has been counted (R90). -/
def copyCounted (u : State) (r : Record) : State :=
  { u with eng := { u.eng with copyCount := u.eng.copyCount + 1, copiedLines := u.eng.copiedLines + r.lines } }

section Copies
variable {u : State} {v : SectorIx} {r : Record} {x : Loc}

theorem copyWritten_of_data (h : r.kind = .value ∨ r.kind = .tombstone) : u.copyWritten v r x =
    (((copyCounted u r).relocate r.key r.seq x).advance (u.eng.cursor + r.lines)).walk v := by
  unfold State.copyWritten
  rcases h with h | h <;> rw [h] <;> rfl

theorem copyWritten_of_marker (h : r.kind = .commit ∨ r.kind = .reclaimEnd) :
    u.copyWritten v r x = ((copyCounted u r).advance (u.eng.cursor + r.lines)).walk v := by
  unfold State.copyWritten
  rcases h with h | h <;> rw [h] <;> rfl

theorem copyWritten_of_retire {j : SectorIx} (h : r.kind = .retire)
    (hj : u.retiredAt { sector := v, line := u.eng.cursor } = some j) : u.copyWritten v r x =
      State.walk (State.advance (((copyCounted u r).modSector j fun e => { e with retireLoc := some x }).modSector x.sector
        (SectorEntry.takeLines 1) |>.modSector v (SectorEntry.giveLines 1)) (u.eng.cursor + r.lines)) v := by
  have hcounted : (copyCounted u r).retiredAt { sector := v, line := u.eng.cursor } = some j := hj
  unfold copyCounted at hcounted
  unfold State.copyWritten
  rw [h]
  dsimp only
  rw [hcounted]
  rfl

end Copies

section Ends
variable {s : State} {sec : SectorIx} {line : Nat} {data : List Byte} {cur : InProgress} {x : Loc} {v : SectorIx}

/-- What a copy leaves goes on: the READ behind the original, or in a halted store the unit's end (R88, R100). -/
abbrev copyGoesOn (s : State) (sec : SectorIx) (line : Nat) (v : SectorIx) (q : Nat) (u : State) : Prop :=
  (s.store.st = .mounted → q < 256 →
    endsIn (.lineProgramEnd .passed) s (walksOn u u.eng v) (fun ln => ln = lineNo sec line)) ∧
  ∀ st, halted s st → unitEndsIn (.lineProgramEnd .passed) s u v st (fun ln => ln = lineNo sec line)

/-- A copy is reported written to a Log Writer with nothing ready behind it (R19, R90). -/
theorem copy_goes_on (h : lastLine s sec line data cur x) (hstr : cur.stream = .reclaim) (hst : s.eng.st = .copying)
    (hsector : s.eng.sector = some v) {u : State} {q : Nat}
    (hcopy : (recordOver s sec line data).copyWritten v cur.record x = u.walk v) (hstore : u.store = s.store)
    (hlw : u.lw = (recordOver s sec line data).lw) (heng : u.eng.st = .copying) (hq : u.eng.cursor = q) :
    copyGoesOn s sec line v q u := by
  have hpend := pends_of_lastLine h
  rw [hstr] at hpend
  have hwritten : (recordOver s sec line data).handle (.written .reclaim cur.record x) = u.walk v := by
    refine Eq.trans ?_ hcopy
    change State.reclaimWritten _ _ _ = _
    unfold State.reclaimWritten
    rw [show (recordOver s sec line data).eng.sector = some v from hsector]
    dsimp only
    rw [show (recordOver s sec line data).eng.st = .copying from hst]
  refine ⟨fun hm hend => ?_, fun st hhalt => ?_⟩
  · rw [walk_of_mounted (u := u) (by rw [hstore]; exact hm) (hq ▸ hend)] at hwritten
    have hafter := Pends.handle (n := 399) hpend hwritten
    rw [queued_nil] at hafter
    refine (Pends.serve_rests (n := 398) hafter
      (servesNothing_of_lastLine h (by rw [hlw]; rfl) (by rw [hlw]; rfl))).ends_quiet closesQuiet_lookAhead
        (rests_of_busy ?_)
    show u.eng.st ≠ .idle
    rw [heng]
    exact nofun
  · have hu : halted u st := by
      unfold halted
      rw [hstore, hlw]
      exact hhalt
    rw [walk_of_halted hu] at hwritten
    have hafter := Pends.handle (n := 399) hpend hwritten
    rw [queued_inner (by simp [Signal.isApart])] at hafter
    exact Pends.to_unitEndsIn_serving onlyServes_one
      (servesNothing_of_lastLine h (by rw [hlw]; rfl) (by rw [hlw]; rfl)) (hafter.mono (by omega))

end Ends

/-- Settles O52, by the kind of the record and what refers to it. -/
theorem copyWritten : Obligations.CopyWritten := by
  intro s sec line data cur x v q hlast hstr hst hsector hq stored k seq data_ counted gone goesOn
  let past := recordOver s sec line data
  have onward {u : State} (hcopy : past.copyWritten v cur.record x = u.walk v) (hstore : u.store = s.store)
      (hlw : u.lw = past.lw) (heng : u.eng.st = .copying) (hcur : u.eng.cursor = q) : goesOn u :=
    copy_goes_on hlast hstr hst hsector hcopy hstore hlw heng hcur
  have hcursor : past.eng.cursor + cur.record.lines = q := hq
  refine ⟨fun hcase => ?_, fun d hdata hk hseq => ?_, fun d hdata hk hp hseq hold => ?_,
    fun j hkind hret hloc honly hjx hjv hxv hdead hlive => ?_⟩
  · refine onward ?_ rfl rfl hst rfl
    rw [← or_assoc] at hcase
    rcases hcase with hmarker | ⟨hdata, hother⟩
    · rw [copyWritten_of_marker hmarker, hcursor]
      rfl
    · rw [copyWritten_of_data hdata, relocate_of_other (u := copyCounted past cur.record) hother, hcursor]
      rfl
  · let moved := (copyCounted past cur.record).takeRecord k d.present x d.lines d.length d.seq
    have hrest := takeRecord_rest (copyCounted past cur.record) k d.present x d.lines d.length d.seq
    have hsectors := takeRecord_sector (copyCounted past cur.record) k d.present x d.lines d.length d.seq
    have hkey : d.key = k := (dirFind_some hk).2
    refine ⟨moved.dir, moved.sectors, moved.eng.stalled, staleTaken (copyCounted past cur.record) k d.present x,
      onward ?_ rfl rfl hst rfl, takeRecord_stalled (copyCounted past cur.record) k d.present x d.lines d.length d.seq,
      ?_, ?_, fun k' hk' => ?_, fun j => ?_, fun j hg ht => lines_counted (hsectors j) hg ht⟩
    · rw [copyWritten_of_data hdata, relocate_of_same (u := copyCounted past cur.record) hk hseq, hrest, hcursor]
      rfl
    · refine (takeRecord_find _ _ _ _ _ _ _ _).trans ((if_pos rfl).trans ?_)
      rw [hkey]
    · refine staleTaken_iff.trans (and_congr_right fun _ => ⟨fun ⟨old, hold, hearlier⟩ => ?_, fun h => ⟨d, hk, h⟩⟩)
      cases Option.some.inj (hold.symm.trans hk)
      exact hearlier
    · exact (takeRecord_find _ _ _ _ _ _ _ _).trans (if_neg hk'.symm)
    · show onlyLines (s.sector j) (moved.sector j)
      rw [hsectors]
      exact onlyLines_trans (onlyLines_giveLines _ _) (onlyLines_takeLines _ _)
  · have hkey : d.key = k := (dirFind_some hk).2
    refine ⟨dirPut s.dir { d with stale := true }, onward ?_ rfl rfl hst rfl, ?_, fun k' hk' => ?_⟩
    · rw [copyWritten_of_data hdata, relocate_of_stale (u := copyCounted past cur.record) hk hp hseq hold, hcursor]
      rfl
    · exact (dirFind_dirPut _ _ _).trans (if_pos hkey)
    · refine (dirFind_dirPut _ _ _).trans (if_neg ?_)
      rw [hkey]
      exact hk'.symm
  · refine onward ?_ rfl rfl hst rfl
    rw [copyWritten_of_retire hkind (retiredAt_of_only (u := past) hret hloc honly),
      locationMoved_eq (u := copyCounted past cur.record) hjx hjv hxv hdead hlive, hcursor]
    rfl

end Sys2Proof.Machine
end

section
/-! SUPPORT. A marker record of the engine as it is reported written (R87, R92, R95). -/

namespace Sys2Proof.Machine

set_option Elab.async false

section Erase
variable {u : State} {v : SectorIx}

/-- Below the endurance limit an ERASE-PENDING sector is erased (R39, R93). -/
theorem eraseOrRetire_erases (h : ¬ barHolds u) (hcount : (u.sector v).eraseCount < 100000) : u.eraseOrRetire v =
    ({ u with
      sectors := (u.modSector v SectorEntry.toErasing).sectors
      eng := { u.eng with st := .erasing }
      arr := u.arr.put .c (.erase v) }, []) := by
  have hfew : ¬ Config.enduranceLimit ≤ (u.sector v).eraseCount := not_le.mpr hcount
  unfold State.eraseOrRetire
  rw [if_neg hfew]
  unfold State.beginErasing
  rw [place_joins (s := (u.setEngine .erasing).modSector v SectorEntry.toErasing) (.inr h)]
  rfl

theorem eraseOrRetire_retires (hcount : 100000 ≤ (u.sector v).eraseCount) :
    u.eraseOrRetire v = u.beginRetiring v .endurance := if_pos (c := Config.enduranceLimit ≤ _) hcount

/-- A sector has been retired with its RETIRE location (R41, R95). -/
def retiredAtPlace (u : State) (v : SectorIx) (x : Loc) : State :=
  let named : SectorEntry := { u.sector v with st := .retired, live := 0, dead := 0, retireLoc := some x }
  let taken : SectorEntry := { u.sector x.sector with
    live := (u.sector x.sector).live + 1, dead := (u.sector x.sector).dead - 1 }
  { u with
    sectors := (u.sectors.set v.val named v.isLt).set x.sector.val taken x.sector.isLt
    win := u.win.raised .sectorRetired }

theorem retireDone_of_written {x : Loc} (hvx : v ≠ x.sector) (hdead : 1 ≤ (u.sector x.sector).dead) :
    u.retireDone v (some x) none =
      (retiredAtPlace u v x, retirementSignals (retiredAtPlace u v x) (retireStatus u)) := by
  have hget : (u.modSector v (SectorEntry.toRetired (some x))).sectors.get x.sector = u.sector x.sector :=
    (modSector_sector u v _ x.sector).trans (if_neg hvx.symm)
  have hplace : ((u.modSector v (SectorEntry.toRetired (some x))).raise .sectorRetired).modSector x.sector
      (SectorEntry.takeLines 1) = retiredAtPlace u v x := by
    unfold retiredAtPlace
    rw [← takeLines_of_le hdead, ← hget]
    rfl
  unfold State.retireDone retirementSignals retireStatus State.orPowerFail
  dsimp only
  rw [hplace]
  cases u.eng.cause <;> rfl

/-- What happens at a retirement's end belongs to it (R42, R95). -/
theorem retirementSignals_inner (u : State) (st : Status) : ∀ g ∈ retirementSignals u st, g.isApart = false := by
  unfold retirementSignals
  split <;> simp [Signal.isApart]

end Erase

/-! ### Reports to the engine -/

section Reports
variable {u : State} {v : SectorIx} {r : Record} {x : Loc}

/-- The walk of a victim begins (R87, R88). -/
def walkBegun (u : State) (v : SectorIx) : State :=
  { u with
    sectors := u.sectors.set v.val { u.sector v with st := .reclaiming } v.isLt
    eng := { cursorAt u.eng 2 with st := .copying, copyCount := 0, copiedLines := 0 } }

theorem reclaimWritten_beginning (hv : u.eng.sector = some v) (hst : u.eng.st = .beginning) :
    u.reclaimWritten r x = (walkBegun u v).walk v := by
  unfold State.reclaimWritten
  rw [hv]
  dsimp only
  rw [hst]
  rfl

theorem reclaimWritten_ending_halted {st : Status} (hv : u.eng.sector = some v) (hst : u.eng.st = .ending)
    (h : halted u st) : u.reclaimWritten r x = (u.modSector v SectorEntry.toErasePending, [.unitEnd st false]) := by
  have hhalt : (u.modSector v SectorEntry.toErasePending).haltStatus = some st := by
    show u.haltStatus = some st
    unfold State.haltStatus
    rcases h with ⟨hst, -, rfl⟩ | ⟨hst, -, rfl⟩ <;> rw [hst]
  unfold State.reclaimWritten
  rw [hv]
  dsimp only
  rw [hst]
  dsimp only
  rw [hhalt]

theorem reclaimWritten_ending (hv : u.eng.sector = some v) (hst : u.eng.st = .ending) (h : u.store.st = .mounted) :
    u.reclaimWritten r x = (u.modSector v SectorEntry.toErasePending).eraseOrRetire v := by
  have hhalt : (u.modSector v SectorEntry.toErasePending).haltStatus = none := by
    show u.haltStatus = none
    unfold State.haltStatus
    rw [h]
  unfold State.reclaimWritten
  rw [hv]
  dsimp only
  rw [hst]
  dsimp only
  rw [hhalt]

theorem reclaimWritten_retiring (hv : u.eng.sector = some v) (hst : u.eng.st = .retiring) :
    u.reclaimWritten r x = u.retireDone v (some x) none := by
  unfold State.reclaimWritten
  rw [hv]
  dsimp only
  rw [hst]

end Reports

/-- Settles O53, by the state of the engine. -/
theorem markerWritten : Obligations.MarkerWritten := by
  intro s sec line data cur x v hlast hstr hsector stored gone
  have hpend := pends_of_lastLine hlast
  rw [hstr] at hpend
  have hserves {y : State} (hy : y.lw = { s.lw with current := none }) : servesNothing y :=
    servesNothing_of_lastLine hlast (by rw [hy]) (by rw [hy])
  have reports {a : Answer} (ha : gone.reclaimWritten cur.record x = a) :
      Pends (.lineProgramEnd .passed) s stored lookAhead 399 (queued a.2 [.serve]) a.1 := Pends.handle (n := 399) hpend ha
  have unitEnds {y : State} {st : Status} (hy : y.lw = { s.lw with current := none })
      (ha : gone.reclaimWritten cur.record x = (y, [.unitEnd st false])) :
      unitEndsIn (.lineProgramEnd .passed) s y v st stored := by
    have hafter := reports ha
    rw [queued_inner (by simp [Signal.isApart])] at hafter
    exact Pends.to_unitEndsIn_serving onlyServes_one (hserves hy) (hafter.mono (by omega))
  have works {y : State} (hy : y.lw = { s.lw with current := none }) (hbusy : y.eng.st ≠ .idle)
      (ha : gone.reclaimWritten cur.record x = (y, [])) : endsIn (.lineProgramEnd .passed) s y stored := by
    have hafter := reports ha
    rw [queued_nil] at hafter
    exact (Pends.serve_rests (n := 398) hafter (hserves hy)).ends_quiet closesQuiet_lookAhead (rests_of_busy hbusy)
  refine ⟨fun hst => ?_, fun hst => ?_, fun hst hvx hdead => ?_⟩
  · have hwalk := reclaimWritten_beginning (u := gone) (r := cur.record) (x := x) hsector hst
    have hcursor : (walkBegun gone v).eng.cursor < 256 := show 2 < 256 by decide
    exact ⟨fun hm => works rfl nofun (hwalk.trans (walk_of_mounted (u := walkBegun gone v) hm hcursor)),
      fun st hhalt => unitEnds rfl (hwalk.trans (walk_of_halted (u := walkBegun gone v) hhalt))⟩
  · refine ⟨fun hm hlow hcount => ?_, fun hm hlow hcount hstop => ?_, fun st hhalt => ?_⟩
    · have hbar : ¬ barHolds (gone.modSector v SectorEntry.toErasePending) := by
        rintro (h | h | h | h)
        · exact nomatch hlow.symm.trans h
        all_goals exact nomatch hm.symm.trans h
      have hcount' : ((gone.modSector v SectorEntry.toErasePending).sector v).eraseCount < 100000 := by
        rw [modSector_sector, if_pos rfl]
        exact hcount
      have herases := (reclaimWritten_ending (u := gone) (r := cur.record) (x := x) hsector hst hm).trans
        (eraseOrRetire_erases hbar hcount')
      rw [modSector_modSector] at herases
      exact works rfl nofun herases
    · have hcount' : 100000 ≤ ((gone.modSector v SectorEntry.toErasePending).sector v).eraseCount := by
        rw [modSector_sector, if_pos rfl]
        exact hcount
      have hretires := (reclaimWritten_ending (u := gone) (r := cur.record) (x := x) hsector hst hm).trans
        (eraseOrRetire_retires hcount')
      exact Pends.to_retiresIn (.inr rfl) (u := gone.modSector v SectorEntry.toErasePending) ⟨hm, hlow, hstop⟩
        ((reports hretires).mono (by omega))
    · exact unitEnds rfl (reclaimWritten_ending_halted (u := gone) hsector hst hhalt)
  · have hafter := reports ((reclaimWritten_retiring (u := gone) (r := cur.record) (x := x) hsector hst).trans
      (retireDone_of_written (u := gone) hvx hdead))
    rw [queued_inner (retirementSignals_inner _ _)] at hafter
    refine Pends.to_retirementEnds (n := 45) (gs := [.serve]) (u := retiredAtPlace gone v x) (hafter.mono (by omega))
      fun y hpost hy => ?_
    exact Pends.to_unitEnd_serving onlyServes_one
      (servesNothing_of_posted (hserves (y := retiredAtPlace gone v x) rfl) hpost) hpost.1 hy

end Sys2Proof.Machine
end

section
/-! SUPPORT. The engine's erase as it ends or is suspended (R93, R95, R100, R105, R110). -/

namespace Sys2Proof.Machine

set_option Elab.async false

/-! ### The bytes of an erased sector -/

theorem cellGet_filter (p : Nat → Bool) (m : List Host.Cell) (a : Nat) :
    cellGet (m.filter fun c => p c.1) a = if p a then cellGet m a else Config.blankByte := by
  induction m with
  | nil => simp [cellGet]
  | cons c rest ih =>
    obtain ⟨k, v⟩ := c
    by_cases hk : k = a
    · subst hk
      by_cases hp : p k = true
      · simp [hp, cellGet]
      · simp [hp, ih]
    · by_cases hp : p k = true
      · simp [hp, cellGet, hk, ih]
      · simp [hp, cellGet, hk, ih]

/-- A passed erase leaves its sector blank and every other line as it was (R2, R93). -/
theorem Flash.endErase_byte (f : Flash) (v : SectorIx) (ln : Nat) {i : Nat} (hi : i < 16) :
    (f.endErase v).byte ln i = if inSector v ln then 0xFF#8 else f.byte ln i := by
  have hline : (16 * ln + i) / 16 = ln := by omega
  unfold Flash.byte Flash.endErase
  refine (cellGet_filter (fun n => !inSector v (n / 16)) f.cells (16 * ln + i)).trans ?_
  rw [hline]
  cases inSector v ln <;> rfl

/-! ### The end -/

section Ends
variable {s : State} {v : SectorIx} {run : EraseRun}

/-- The array once an erase of slot C has ended (R103, R105). -/
def eraseOver (s : State) (v : SectorIx) (verify : Verify) : State :=
  { s with
    flash := match verify with | .passed => s.flash.endErase v | .failed => s.flash.failErase v
    arr := { s.arr.ended .c with erase := none } }

theorem exec_eraseEnd (h : performs s .c (.erase v)) (hrun : s.arr.erase = some run) (hslot : run.slot = .c)
    (hcond : run.cond = .running) (verify : Verify) :
    exec (.eraseEnd verify) s = conclude ((eraseOver s v verify).eraseEnded v verify) := by
  obtain ⟨hbusy, hop⟩ := h
  have hrunning : s.eraseRunning .c = true := by
    unfold State.eraseRunning
    rw [hrun]
    dsimp only
    rw [hslot, hcond]
    rfl
  change execEraseEnd verify s = _
  unfold execEraseEnd
  rw [inHand_of hbusy hop]
  dsimp only
  rw [hrunning, if_pos rfl]
  cases verify <;> rfl

variable {u : State}

/-- The erase stamp of an erased sector is placed (R93, R94). -/
theorem eraseEnded_passed (hbar : ¬ barHolds u) : u.eraseEnded v .passed =
    ({ u with
      sectors := (u.modSector v SectorEntry.raiseCount).sectors
      eng := { u.eng with st := .stamping }
      arr := u.arr.put .c (.program v 0 (eraseStampLine u.store.generation ((u.sector v).eraseCount + 1))) }, []) := by
  have hcount : ((u.modSector v SectorEntry.raiseCount).sector v).eraseCount = (u.sector v).eraseCount + 1 := by
    rw [modSector_sector, if_pos rfl]
    rfl
  unfold State.eraseEnded
  dsimp only
  rw [hcount, place_joins (s := (u.modSector v SectorEntry.raiseCount).setEngine .stamping) (.inr hbar)]
  rfl

/-- In READ-ONLY the erase stamp is refused (R93, R112). -/
theorem eraseEnded_refused (hst : u.store.st = .readOnly) (hlow : u.pins.pfailLow = false) : u.eraseEnded v .passed =
    ({ u with
      sectors := (u.modSector v fun e => e.raiseCount.toErasePending).sectors
      eng := { u.eng with st := .stamping } }, [.unitEnd .readOnly false]) := by
  have hbar : ((u.modSector v SectorEntry.raiseCount).setEngine .stamping).writeBar = some .readOnly := by
    show u.writeBar = _
    unfold State.writeBar
    rw [hlow, hst]
    rfl
  unfold State.eraseEnded
  dsimp only
  rw [place_of_barred rfl hbar]
  dsimp only
  rw [show (u.modSector v SectorEntry.raiseCount).setEngine .stamping =
    State.modSector (u.setEngine .stamping) v SectorEntry.raiseCount from rfl, modSector_modSector]
  rfl

/-- After a failed erase the sector is retired (R93, R95). -/
theorem eraseEnded_failed : u.eraseEnded v .failed =
    ((u.modSector v SectorEntry.toErasePending).raise .eraseFault).beginRetiring v .eraseFault := rfl

theorem beginRetiring_flash (hw : u.writable) {cause : RetireCause} : (u.beginRetiring v cause).1.flash = u.flash := by
  rcases le_or_gt (u.lw.seqCtr + 1) 0xFFFFFFFF with hseq | hseq
  · rw [beginRetiring_of_room hw hseq]
  · rw [beginRetiring_of_refused hw hseq]
    rfl

/-- In READ-ONLY the RETIRE record is refused (R95, R112). -/
theorem beginRetiring_of_readOnly {cause : RetireCause} (hst : u.store.st = .readOnly) (hstop : u.lw.stopped = false)
    (hseq : u.lw.seqCtr + 1 ≤ 0xFFFFFFFF) : u.beginRetiring v cause =
      ({ u with
        eng := { u.eng with st := .retiring, cause := cause }
        lw := { u.lw with seqCtr := u.lw.seqCtr + 1 } }, [.refused .reclaim .readOnly]) := by
  have hacc : u.accepting = false := not_accepting_of_readOnly hst
  have hroom : State.reclaimRoom { u with eng := { u.eng with st := .retiring, cause := cause } } Config.passMargin = false :=
    Bool.eq_false_iff.mpr fun h => by
      obtain ⟨h, -⟩ := reclaimRoom_iff.mp h
      exact nomatch hacc.symm.trans h
  have hstatus : u.writerStatus = .readOnly := by
    unfold State.writerStatus
    rw [hstop, hst]
    rfl
  unfold State.beginRetiring
  dsimp only
  rw [hroom, if_neg Bool.false_ne_true,
    takeSeq_of_room (u := { u with eng := { u.eng with st := .retiring, cause := cause } }) hseq]
  dsimp only
  rw [offer_of_not_accepting]
  · refine congrArg (fun x => (_, [Signal.refused .reclaim x])) ?_
    exact hstatus
  · exact hacc

/-- The record of a retirement is refused by a store in READ-ONLY (R95, R100). -/
theorem reclaimRefused_retiring {st : Status} (hv : u.eng.sector = some v) (hst : u.eng.st = .retiring) :
    u.reclaimRefused st = u.retireDone v none (some st) := by
  unfold State.reclaimRefused
  rw [hv]
  dsimp only
  rw [hst]

end Ends

/-- Settles O54, by the verify, the store, and the condition of the erase. -/
theorem eraseEndsAndSuspends : Obligations.EraseEndsAndSuspends := by
  refine ⟨?_, ?_⟩
  · intro s v run hperf hrun hslot hcond x y freed erased failed within
    have blank (line i : Nat) (hl : line < 256) (hi : i < 16) : (s.flash.endErase v).byte (lineNo v line) i = 0xFF#8 := by
      rw [Flash.endErase_byte _ _ _ hi, inSector_lineNo v hl]
      rfl
    have passes {a : Answer} (ha : (eraseOver s v .passed).eraseEnded v .passed = a)
        (hflash : a.1.flash = s.flash.endErase v) :
        Pends (.eraseEnd .passed) s within lookAhead 400 (queued a.2 []) a.1 :=
      pends_of_conclude (by rw [exec_eraseEnd hperf hrun hslot hcond, ha]) fun ln i hi hout => by
        rw [hflash, Flash.endErase_byte _ _ _ hi, if_neg hout]
    have fails {a : Answer} (ha : (eraseOver s v .failed).eraseEnded v .failed = a)
        (hflash : a.1.flash = s.flash.failErase v) :
        Pends (.eraseEnd .failed) s nowhere lookAhead 400 (queued a.2 []) a.1 :=
      pends_of_conclude (by rw [exec_eraseEnd hperf hrun hslot hcond, ha]) fun ln i _ _ => by
        rw [hflash]
        rfl
    refine ⟨blank, fun hw => ?_, fun hst hlow hstop => ⟨?_, fun hseq => ?_⟩⟩
    · intro u
      have hbar : ¬ barHolds (eraseOver s v .passed) := not_barHolds_of_writable hw
      refine ⟨⟨?_, fun line i hl hi => (grant_byte u _ _).trans (blank line i hl hi)⟩, ?_⟩
      · have hpend := passes (eraseEnded_passed hbar) rfl
        rw [queued_nil] at hpend
        exact hpend.ends_quiet closesQuiet_lookAhead (rests_of_busy nofun)
      · exact Pends.to_retiresIn (.inl rfl) (u := failed) hw
          ((fails eraseEnded_failed (beginRetiring_flash (u := failed) hw)).mono (by omega))
    · have hpend := passes (eraseEnded_refused (u := eraseOver s v .passed) hst hlow) rfl
      rw [queued_inner (by simp [Signal.isApart])] at hpend
      exact Pends.to_unitEndsIn (hpend.mono (by omega))
    · intro u hv
      have hpend := fails (eraseEnded_failed.trans (beginRetiring_of_readOnly (u := failed) hst hstop hseq)) rfl
      rw [queued_inner (by simp [Signal.isApart])] at hpend
      have hdone := Pends.handle (n := 399) hpend
        ((reclaimRefused_retiring (u := u) (st := .readOnly) hv rfl).trans (retireDone_of_refused u v .readOnly))
      rw [queued_inner (retirementSignals_inner _ _)] at hdone
      refine (Pends.to_retirementEnds (n := 397) (gs := []) (u := retiredIn u v none) hdone fun y hpost hy =>
        Pends.to_unitEnd hpost.1 (hy.mono (by omega))).1 (.inl ?_) hv
      exact fun hm => nomatch hst.symm.trans hm
  · intro s run hrun hcond u
    have hexec : exec .eraseSuspended s = .next u.grant := by
      change execEraseSuspended s = _
      unfold execEraseSuspended
      rw [hrun]
      exact if_pos hcond
    exact endsIn_of hexec (bytesKept_of_flash rfl nowhere)

end Sys2Proof.Machine
end

section
/-! SUPPORT. The engine's erase stamp as its program ends, the end of the unit with it, and the commit that still has no
room (R71, R72, R84, R94, R98, R99). -/

namespace Sys2Proof.Machine

set_option Elab.async false

/-! ### The commit that still waits -/

section Waits
variable {c : Instr} {s : State} {stored : Nat → Prop} {w : State} {f : CommitFlight}

/-- A commit waits for space that is not there (R71). -/
structure WaitsInVain (w : State) (f : CommitFlight) : Prop where
  commit : w.tm.commit = some f
  phase : f.phase = .waitingSpace
  auto : w.settings.autoReclaim = 1
  full : w.freeLines < w.heldLines + f.amount + 272

theorem WaitsInVain.request {y : State} (h : WaitsInVain y f) : y.requestSpace = (y, []) := by
  rw [requestSpace_of_commit h.commit h.phase, if_neg, notGranted_of_wait h.auto]
  rw [commitRoom_iff]
  have hfull := h.full
  omega

theorem WaitsInVain.grant {y : State} (h : WaitsInVain y f) : WaitsInVain y.grant f := by
  rw [(granted y).rest]
  exact ⟨h.commit, h.phase, h.auto, h.full⟩

/-- A unit that starts leaves no more room than there was (R21, R71). -/
theorem WaitsInVain.started {u y : State} (h : WaitsInVain u f) (hres : u.lw.reclaimRes = none) (hy : StartLeaves u y) :
    WaitsInVain y f := by
  refine ⟨by rw [hy.tm]; exact h.commit, h.phase, by rw [hy.settings]; exact h.auto, ?_⟩
  have hfull := h.full
  have hfree := hy.free
  have hheld : u.heldLines ≤ y.heldLines := by
    unfold State.heldLines
    rw [hy.res, hres]
    exact Nat.le_add_right _ _
  omega

/-- With the request first it is not granted, and the engine looks (R71, R84). -/
theorem Pends.vain_request_search (hwait : WaitsInVain w f) (hun : unmarked w)
    (h : Pends c s stored lookAhead 40 [.request, .look] w) : looksIn c s w stored := by
  have hlook := Pends.handle (n := 38) (Pends.handle (n := 39) h hwait.grant.request) rfl
  rw [grant_grant] at hlook
  exact Pends.to_looks_end closesQuiet_lookAhead lookAhead_grant (granted w).rest (hlook.mono (by omega))
    fun z _ hz => conclude_of_look (hz (.inr hun))

/-- With the search first the unit it starts leaves no room for the request (R71, R84). -/
theorem Pends.vain_search_request (hwait : WaitsInVain w f) (hun : unmarked w) (hres : w.lw.reclaimRes = none)
    (h : Pends c s stored lookAhead 40 [.look, .request] w) : looksIn c s w stored := by
  have hlook : Pends c s stored lookAhead 39 (queued w.grant.lookForWork.2 [.request]) w.grant.lookForWork.1 := h.handle rfl
  have still {y : State} (hy : Pends c s stored lookAhead 10 [.request] y) (hr : y.grant.requestSpace = (y.grant, [])) :
      Pends c s stored lookAhead 9 [] y :=
    Pends.ungrant lookAhead_grant (hy.handle (n := 9) hr) hy.bytes
  refine Pends.to_looks (n := 10) (gs := [.request]) (granted w).rest (hlook.mono (by omega)) (fun y hbusy hy hp => ?_)
    (fun y _ hnone hz hp => ?_) (fun y _ hfresh hp => ?_) fun y hst hnone hp => ?_
  · have hres' : w.grant.lw.reclaimRes = none := by
      rw [(granted w).rest]
      exact hres
    exact (still hp (hwait.grant.started hres' hy).grant.request).ends_quiet closesQuiet_lookAhead (rests_of_busy hbusy)
  · exact endsIn_of ((still hp (requestSpace_of_none (spaceWaiter_grant hnone))).exec_eq.trans
      (conclude_of_look (hz (.inr hun)))) hp.bytes
  · exact Pends.to_refusedAtOnce (gs := [.request]) lookAhead_grant (by simp) hfresh (hp.mono (by simp)) fun z hq hz =>
      hz.ends_quiet closesQuiet_lookAhead hq
  · exact (still hp (requestSpace_of_none (spaceWaiter_grant hnone))).ends_quiet closesQuiet_lookAhead
      (rests_of_readOnly hst)

/-- A unit has ended, and the commit that waits still has no room (R71, R84, R98; log 9). -/
theorem Pends.vain_after_unit (hst : w.store.st = .mounted) (hwait : WaitsInVain w f) (hun : unmarked w)
    (hres : w.lw.reclaimRes = none) (h : Pends c s stored lookAhead 40 (queued w.afterUnit.2 []) w.afterUnit.1) :
    looksIn c s { w with freeCount := w.freeCount + 1 } stored := by
  have hwait' : WaitsInVain { w with freeCount := w.freeCount + 1 } f :=
    ⟨hwait.commit, hwait.phase, hwait.auto, hwait.full⟩
  rw [afterUnit_of_waiter hst (spaceWaiter_of_commit hwait.commit hwait.phase)] at h
  dsimp only at h
  split at h
  · rw [queued_apart (by simp [Signal.isApart])] at h
    exact Pends.vain_search_request hwait' hun hres h
  · rw [queued_apart (by simp [Signal.isApart])] at h
    exact Pends.vain_request_search hwait' hun h

end Waits

/-! ### The stamp -/

theorem exec_eraseStampProgramEnd {s : State} {v : SectorIx} {data : List Byte} (h : performs s .c (.program v 0 data))
    (verify : Verify) :
    exec (.eraseStampProgramEnd verify) s = conclude ((programOver s .c v 0 data verify).stampEnded v verify) := by
  obtain ⟨hbusy, hslot⟩ := h
  change execEraseStampProgramEnd verify s = _
  unfold execEraseStampProgramEnd
  rw [inHand_of hbusy hslot]
  dsimp only
  rw [programmed_release]

/-- The erase stamp program has ended, and with it the work on the sector (R94). -/
def stamped (s : State) (v : SectorIx) (data : List Byte) (verify : Verify) : State :=
  { programOver s .c v 0 data verify with
    sectors := (s.modSector v (if verify = .passed then SectorEntry.toBlank s.store.generation
      else SectorEntry.toErasePending)).sectors
    win := if verify = .passed then s.win else s.win.raised .programFault }

section Stamped
variable {s : State} {v : SectorIx} {data : List Byte}

theorem stampEnded_eq (verify : Verify) : (programOver s .c v 0 data verify).stampEnded v verify =
    (stamped s v data verify, [.unitEnd
      (if s.store.st = .powerHold then .powerFail else if verify = .passed then .ok else .arrayFault) false]) := by
  cases verify <;> rfl

theorem stamped_sector (verify : Verify) (j : SectorIx) : (stamped s v data verify).sector j =
    if j = v then (if verify = .passed then SectorEntry.toBlank s.store.generation else SectorEntry.toErasePending)
      (s.sector v) else s.sector j := by
  refine (modSector_sector s v _ j).trans ?_
  split
  · rename_i hj
    rw [hj]
  · rfl

theorem stamped_unmarked {verify : Verify} (h : ∀ j, (s.sector j).mark = false) (j : SectorIx) :
    ((stamped s v data verify).sector j).mark = false := by
  rw [stamped_sector]
  split
  · cases verify <;> exact h v
  · exact h j

theorem stamped_blank (verify : Verify) :
    ((stamped s v data verify).sector v).st = if verify = .passed then .blank else .erasePending := by
  rw [stamped_sector, if_pos rfl]
  cases verify <;> rfl

theorem stamped_freed (verify : Verify) : freedBy (stamped s v data verify) v =
    if verify = .passed then 254 - s.eng.copiedLines else 0 := by
  unfold freedBy
  rw [stamped_blank]
  cases verify <;> rfl

theorem stamped_stalled (verify : Verify) :
    (!decide ((if verify = .passed then SectorState.blank else .erasePending) = .blank) &&
      ((stamped s v data verify).eng.stalled || false)) = (s.eng.stalled && decide (verify = .failed)) := by
  rw [Bool.or_false, Bool.and_comm]
  cases verify <;> rfl

end Stamped

/-- Settles O55, by the verify: the unit ends, and with it the wait of whoever still has no room. -/
theorem eraseStampProgramEnd : Obligations.EraseStampProgramEnd := by
  intro s v data verify hperf hst hsector st freed result x u stored ends
  have hended : (programOver s .c v 0 data verify).stampEnded v verify =
      (stamped s v data verify, [.unitEnd st false]) := stampEnded_eq verify
  have hpend : Pends (.eraseStampProgramEnd verify) s stored lookAhead 400 [.unitEnd st false]
      (stamped s v data verify) := by
    refine pends_of_conclude (by rw [exec_eraseStampProgramEnd hperf, hended]) ?_
    cases verify with
    | passed => exact fun ln i hi hne => bytesKept_endProgram rfl ln i hi fun hln => hne ⟨rfl, hln⟩
    | failed => exact bytesKept_failProgram _ rfl
  have hunit : unitEndsTo (stamped s v data verify) v st false ends := by
    refine Pends.to_unitEnds (n := 399) hpend fun w ⟨hidle, hw⟩ hp => ⟨(hp.mono (by omega)).to_unitEnd hidle,
      fun f hm hf hphase hset hauto hres hmarks hfull => ?_⟩
    have hcount : w.freeCount = s.freeCount := by rw [hw]; rfl
    rw [← hcount]
    refine Pends.vain_after_unit (f := f) ?_ ⟨?_, hphase, ?_, hfull⟩ ⟨?_, fun j => ?_⟩ ?_ (hp.mono (by omega))
    all_goals rw [hw]
    · exact hm
    · exact hf
    · exact hauto
    · exact hres
    · exact stamped_unmarked (data := data) hmarks j
  have hu : unitOver (stamped s v data verify) v st false = u := by
    unfold unitOver
    rw [stamped_freed, stamped_blank]
    dsimp only
    rw [stamped_stalled]
    cases verify <;> rfl
  obtain ⟨hauto, hcommand⟩ := hunit hsector
  refine ⟨fun ho => hu ▸ hauto ho, fun before tag after t ho hfly => ?_, fun hpass hlen hwf => ?_⟩
  · have h := hcommand before tag after t ho hfly
    rw [hu, stamped_freed] at h
    exact h
  · subst hpass
    exact holdsLine_grant (holdsLine_endProgram hlen hwf rfl)

end Sys2Proof.Machine
end

section
/-! SUPPORT. MOUNT and FORMAT as they are taken (R121, R133–R135). -/

namespace Sys2Proof.Machine

set_option Elab.async false

section Checks
variable {s : State} {e : CmdEntry} {rest : List CmdEntry}

theorem workInFlight_iff : s.workInFlight = true ↔ ¬ noWork s := by
  unfold State.workInFlight noWork State.inFlight
  rw [Bool.or_eq_true, Bool.or_eq_true, writeInFlight_iff, decide_eq_true_iff, List.any_eq_true]
  simp only [decide_eq_true_iff, not_and_or, not_forall, not_not, exists_prop, or_assoc]
  rfl

theorem anyFixed_iff : s.anyFixed = true ↔ ∃ i : GuardIx, (s.guards.get i).fixed = true := by
  unfold State.anyFixed
  rw [List.any_eq_true]
  refine ⟨fun ⟨x, hx, hfixed⟩ => ?_, fun ⟨i, hfixed⟩ => ⟨_, Vector.mem_toList_iff.mpr (Vector.getElem_mem i.isLt), hfixed⟩⟩
  obtain ⟨i, hi, rfl⟩ := Vector.mem_iff_getElem.mp (Vector.mem_toList_iff.mp hx)
  exact ⟨⟨i, hi⟩, hfixed⟩

theorem forFormat_eq (x : SectorEntry) : x.forFormat = entryForFormat x := by
  unfold SectorEntry.forFormat entryForFormat
  cases hst : x.st <;> simp [SectorState.holdsLog, SectorEntry.toErasePending]

/-- A command that its checks refuse ends at once, and a grant closes the step (R133, R134). -/
theorem endsIn_refused {c : Instr} {u : State} (h : exec c s = .next u.grant) (hflash : u.flash = s.flash) :
    endsIn c s u nowhere := endsIn_of h (bytesKept_of_flash hflash nowhere)

/-- Slot M empty, a READ of the Store Controller is placed there (R106). -/
theorem placeM_of_read {u : State} (hm : u.arr.m = none) (q : MPurpose) {op : ArrayOp} (hop : op.isWrite = false) :
    u.placeM q op =
      { u with arr := u.arr.put .m op, store := { u.store with req := some { purpose := q, abandoned := false } } } := by
  unfold State.placeM
  rw [hm]
  dsimp only
  rw [place_joins (.inl hop)]

/-- A mount that begins with slot M empty (R121, R122). -/
theorem beginMount_of_empty {u : State} (hm : u.arr.m = none) (hlow : u.pins.pfailLow = false) (o : MountOwner) :
    u.beginMount o = { mountBegun u u.pins with
      arr := u.arr.put .m (.readLines 0 0 2)
      store := { (mountBegun u u.pins).store with mount := some o } } := by
  unfold State.beginMount State.placeStamp
  dsimp only
  rw [if_neg, placeM_of_read]
  · rfl
  · exact hm
  · rfl
  · show ¬ u.pins.pfailLow = true
    rw [hlow]
    exact nofun

end Checks

/-- Settles O45, by the checks of R133. -/
theorem mountTaken : Obligations.MountTaken := by
  intro s e rest h hcode hlow hst
  have hcheck : s.mountCheck = if s.workInFlight then some .busy else none := by
    unfold State.mountCheck
    rw [hlow]
    rcases hst with hst | hst | hst <;> rw [hst] <;> simp
  refine ⟨fun hwork => ?_, fun hwork hm => ?_⟩
  · rw [if_pos (workInFlight_iff.mpr hwork)] at hcheck
    exact endsIn_refused (exec_mount_of_mountCheck h hcode hcheck) rfl
  · rw [if_neg (workInFlight_iff.not.mpr (not_not.mpr hwork))] at hcheck
    have hexec : exec .mount s = .next (s.dequeue.takeMount e).grant := by
      rw [exec_mount, takes_of_heads h (decide_eq_true hcode)]
    have htake : s.dequeue.takeMount e = (s.dequeue.launch e).beginMount (.command e.tag) := by
      unfold State.takeMount
      rw [show s.dequeue.mountCheck = none from hcheck]
    rw [htake, dequeue_launch_of_heads h, beginMount_of_empty] at hexec
    · exact endsIn_refused hexec rfl
    · exact hm
    · exact hlow

/-- Settles O46, by the checks of R134. -/
theorem formatTaken : Obligations.FormatTaken := by
  intro s e rest h hcode hst refused fixed g f
  have hcheck : s.formatCheck = if s.anyFixed then some .protected_ else if s.workInFlight then some .busy
      else if 65535 ≤ s.store.generation then some .readOnly else none := by
    unfold State.formatCheck
    rcases hst with hst | hst | hst <;> rw [hst, if_neg nofun, if_neg nofun] <;> rfl
  have endsRefused {st : Status} (hrefuse : s.formatCheck = some st) : endsIn .format s (refused st) nowhere :=
    endsIn_refused (exec_format_of_formatCheck h hcode hrefuse) rfl
  have busy (hwork : ¬ noWork s) : s.workInFlight = true := workInFlight_iff.mpr hwork
  have free (hwork : noWork s) : ¬ s.workInFlight = true := workInFlight_iff.not.mpr (not_not.mpr hwork)
  refine ⟨fun hfix => endsRefused ?_, fun hfix hwork => endsRefused ?_, fun hfix hwork hgen => endsRefused ?_,
    fun hfix hwork hgen hm => ?_⟩
  · rw [hcheck, if_pos (anyFixed_iff.mpr hfix)]
  · rw [hcheck, if_neg (anyFixed_iff.not.mpr hfix), if_pos (busy hwork)]
  · rw [hcheck, if_neg (anyFixed_iff.not.mpr hfix), if_neg (free hwork), if_pos hgen]
  · rw [if_neg (anyFixed_iff.not.mpr hfix), if_neg (free hwork), if_neg (not_le.mpr hgen)] at hcheck
    have hexec : exec .format s = .next (s.dequeue.takeFormat e).grant := by
      rw [exec_format, takes_of_heads h (decide_eq_true hcode)]
    have htake : s.dequeue.takeFormat e = (s.dequeue.launch e).beginFormat e.tag := by
      unfold State.takeFormat
      rw [show s.dequeue.formatCheck = none from hcheck]
    have hclears : SectorEntry.forFormat = entryForFormat := funext forFormat_eq
    unfold State.beginFormat State.formatReadLine State.formatClears at htake
    rw [dequeue_launch_of_heads h, placeM_of_read, hclears] at htake
    · rw [htake] at hexec
      exact endsIn_refused hexec rfl
    · exact hm
    · rfl

end Sys2Proof.Machine
end

section
/-! SUPPORT. The happenings of a store that has entered POWER-HOLD: they come to an end, and what stands through them
(R26, R79, R100, R113, R120). -/

namespace Sys2Proof.Machine

set_option Elab.async false

/-! ### Grants under the write bar -/

section Barred
variable {u : State}

/-- A grant keeps every request, and what is in progress stays so (R107). -/
theorem grant_slot_kept {x : SlotId} {r : Request} (h : u.arr.slot x = some r) :
    ∃ b, u.grant.arr.slot x = some { r with inProgress := b } ∧ (r.inProgress = true → b = true) := by
  rcases grant_cases u with ⟨y, n, he, hgrant⟩ | ⟨-, hslots⟩
  · obtain ⟨op', hy⟩ := eligible_waits he
    rw [hgrant, start_slot hy]
    by_cases hxy : x = y
    · subst hxy
      cases h.symm.trans hy
      exact ⟨true, if_pos rfl, fun _ => rfl⟩
    · exact ⟨r.inProgress, (if_neg hxy).trans h, id⟩
  · exact ⟨r.inProgress, (hslots x).trans h, id⟩

/-- A grant makes no request wait. -/
theorem waitingWrite_grant {x : SlotId} (h : u.arr.waitingWrite x = false) : u.grant.arr.waitingWrite x = false := by
  unfold Sequencer.waitingWrite at h ⊢
  cases hx : u.arr.slot x with
  | some r =>
    obtain ⟨b, hgrant, hkept⟩ := grant_slot_kept hx
    rw [hx] at h
    rw [hgrant]
    dsimp only at h ⊢
    cases hr : r.inProgress with
    | true => rw [hkept hr]; rfl
    | false =>
      rw [hr] at h
      rw [show r.op.isWrite = false from h, Bool.and_false]
  | none =>
    rcases grant_cases u with ⟨y, n, he, hgrant⟩ | ⟨-, hslots⟩
    · obtain ⟨op', hy⟩ := eligible_waits he
      rw [hgrant, start_slot hy, if_neg, hx]
      rintro rfl
      exact nomatch hx.symm.trans hy
    · rw [hslots, hx]

/-- Under the write bar no erase begins (R112). -/
theorem grant_erase_none (hbar : u.writeBar.isSome = true) (h : u.arr.erase = none) : u.grant.arr.erase = none := by
  have started {x : SlotId} {n : Nat} (he : u.eligible x = true) : (u.start x n).arr.erase = none := by
    obtain ⟨op, hop⟩ := eligible_waits he
    have hread := eligible_barred he hbar hop
    unfold State.start
    rw [hop]
    cases op with
    | program _ _ _ => exact nomatch hread
    | erase _ => exact nomatch hread
    | readRecord _ _ _ => cases x <;> exact h
    | readLines _ _ _ => cases x <;> exact h
  cases hb : u.arr.busy with
  | some x => rw [grant_of_busy hb, h]
  | none =>
    rw [grant_idle hb h]
    split
    · rename_i hc
      exact started (Bool.and_eq_true _ _ ▸ hc).1
    · split
      · exact started ‹_›
      · split
        · exact started ‹_›
        · split
          · exact started ‹_›
          · split
            · exact started ‹_›
            · exact h

end Barred

/-! ### The happenings -/

/-- The happenings that follow a move to POWER-HOLD. -/
def Signal.holds : Signal → Bool
  | .slotRefused _ _ => true
  | .refused _ _ => true
  | .serve => true
  | .unitEnd _ _ => true
  | .leaveMounted _ => true
  | _ => false

/-- How many happenings one of them can bring about, itself included. -/
def Signal.weight : Signal → Nat
  | .slotRefused _ _ => 5
  | .refused _ _ => 3
  | _ => 1

/-- The happenings that a list can bring about. -/
def weightOf (gs : List Signal) : Nat :=
  (gs.map Signal.weight).sum

theorem weightOf_append (gs hs : List Signal) : weightOf (gs ++ hs) = weightOf gs + weightOf hs := by
  simp [weightOf]

/-- What stands through them: the guards, the staging list, held, and the stopped Log Writer. -/
structure Stands (s t : State) : Prop where
  guards : t.guards = s.guards
  staging : t.tm.staging = s.tm.staging
  held : s.tm.held = true → t.tm.held = true
  stopped : t.lw.stopped = s.lw.stopped

theorem Stands.same {s t : State} (hg : t.guards = s.guards := by rfl) (ht : t.tm = s.tm := by rfl)
    (hl : t.lw.stopped = s.lw.stopped := by rfl) : Stands s t :=
  ⟨hg, by rw [ht], by rw [ht]; exact id, hl⟩

theorem Stands.refl (s : State) : Stands s s := .same

theorem Stands.trans {s t u : State} (h1 : Stands s t) (h2 : Stands t u) : Stands s u :=
  ⟨h2.guards.trans h1.guards, h2.staging.trans h1.staging, h2.held ∘ h1.held, h2.stopped.trans h1.stopped⟩

theorem Stands.finish {s t : State} (h : Stands s t) (code : Byte) (st : Status) (a b c : Nat) :
    Stands s (t.finish code st a b c) := by
  refine h.trans ?_
  unfold State.finish
  split <;> exact .same

theorem stands_commitFail (s : State) (st : Status) : Stands s (s.commitFail st) := by
  unfold State.commitFail
  split
  · exact .refl s
  · refine Stands.finish ?_ _ _ _ _ _
    refine ⟨rfl, rfl, fun h => ?_, rfl⟩
    dsimp only
    rw [h]
    rfl

theorem stands_settingsFail (s : State) (st : Status) : Stands s (s.settingsFail st) := by
  unfold State.settingsFail
  split
  · exact .refl s
  · refine Stands.finish ?_ _ _ _ _ _
    exact ⟨rfl, rfl, id, rfl⟩

theorem stands_stallAtEnd (s : State) (v : SectorIx) (b : Bool) : Stands s (s.stallAtEnd v b) := by
  rw [stallAtEnd_eq]
  exact .same

theorem store_finish (s : State) (code : Byte) (st : Status) (a b c : Nat) : (s.finish code st a b c).store = s.store := by
  unfold State.finish
  split <;> rfl

/-- A unit ends, and outside MOUNTED nothing follows it (R98). -/
theorem stands_endUnit {s : State} (hst : s.store.st ≠ .mounted) (st : Status) (b : Bool) :
    Stands s (s.endUnit st b).1 ∧ (s.endUnit st b).2 = [] := by
  unfold State.endUnit
  split
  · exact ⟨.refl s, rfl⟩
  · rename_i v hv
    have hbase : Stands s (s.stallAtEnd v b).releaseReclaim := (stands_stallAtEnd s v b).trans .same
    have hstore : (s.stallAtEnd v b).store = s.store := by rw [stallAtEnd_eq]
    dsimp only
    split
    · rw [afterUnit_of_not_mounted]
      · exact ⟨hbase.trans .same, rfl⟩
      · show (s.stallAtEnd v b).store.st ≠ .mounted
        rw [hstore]
        exact hst
    · rw [afterUnit_of_not_mounted]
      · exact ⟨(hbase.finish _ _ _ _ _).trans .same, rfl⟩
      · dsimp only
        rw [store_finish]
        show (s.stallAtEnd v b).store.st ≠ .mounted
        rw [hstore]
        exact hst

theorem stands_refuseCurrent (s : State) (st : Status) : Stands s (s.refuseCurrent st).1 := by
  unfold State.refuseCurrent
  split <;> exact .same

/-- What a retirement brings about (R42, R95). -/
theorem retirementSignals_holds (s : State) (st : Status) :
    (∀ g ∈ retirementSignals s st, g.holds = true) ∧ weightOf (retirementSignals s st) ≤ 2 := by
  unfold retirementSignals
  split <;> simp [weightOf, Signal.holds, Signal.weight]

/-- A happening leaves POWER-HOLD as it is, and brings about less than itself. -/
structure Dwindles (s : State) (g : Signal) (a : Answer) : Prop where
  stands : Stands s a.1
  holds : ∀ x ∈ a.2, x.holds = true
  less : weightOf a.2 < g.weight

theorem dwindles_slotRefused (s : State) (x : SlotId) (st : Status) :
    Dwindles s (.slotRefused x st) (s.slotRefused x st) := by
  have nothing : Dwindles s (.slotRefused x st) (s, []) := ⟨.refl s, nofun, Nat.zero_lt_succ _⟩
  cases x with
  | h => exact nothing
  | m => exact nothing
  | l =>
    change Dwindles s _ (State.refuseCurrent { s with lw := { s.lw with opening := none } } st)
    refine ⟨Stands.trans .same (stands_refuseCurrent _ _), ?_, ?_⟩ <;> unfold State.refuseCurrent <;> split <;>
      simp [weightOf, Signal.holds, Signal.weight]
  | c =>
    change Dwindles s _ (s.engineRefused st)
    unfold State.engineRefused
    split
    · exact ⟨.refl s, nofun, Nat.zero_lt_succ _⟩
    · split
      · exact ⟨.same, by simp [Signal.holds], by simp [weightOf, Signal.weight]⟩
      · exact ⟨.same, by simp [Signal.holds], by simp [weightOf, Signal.weight]⟩
      · exact ⟨.refl s, nofun, Nat.zero_lt_succ _⟩

theorem dwindles_refused (s : State) (x : Stream) (st : Status) :
    Dwindles s (.refused x st) (s.handle (.refused x st)) := by
  cases x with
  | commit =>
    change Dwindles s _ (s.commitRefused st)
    unfold State.commitRefused
    split
    · exact ⟨stands_commitFail _ _, nofun, Nat.zero_lt_succ _⟩
    · exact ⟨stands_settingsFail _ _, nofun, Nat.zero_lt_succ _⟩
  | reclaim =>
    change Dwindles s _ (s.reclaimRefused st)
    have ends (b : Bool) : Dwindles s (.refused .reclaim st) (s, [.unitEnd st b]) :=
      ⟨.refl s, by simp [Signal.holds], by simp [weightOf, Signal.weight]⟩
    have nothing : Dwindles s (.refused .reclaim st) (s, []) := ⟨.refl s, nofun, Nat.zero_lt_succ _⟩
    unfold State.reclaimRefused
    split
    · exact nothing
    · rename_i v _
      split
      · exact ends _
      · exact ends _
      · exact ends _
      · obtain ⟨hholds, hless⟩ := retirementSignals_holds (retiredIn s v none)
          (if st = .powerFail ∨ st = .readOnly then st else retireStatus s)
        rw [retireDone_of_refused]
        exact ⟨.same, hholds, Nat.lt_succ_of_le hless⟩
      · exact nothing

/-- One happening of a store in POWER-HOLD. -/
theorem dwindles {s : State} (hst : s.store.st = .powerHold) {g : Signal} (hg : g.holds = true) :
    Dwindles s g (s.handle g) := by
  have hnot : s.store.st ≠ .mounted := by rw [hst]; exact nofun
  have nothing (h : s.handle g = (s, [])) (hw : 0 < g.weight) : Dwindles s g (s.handle g) := by
    rw [h]
    exact ⟨.refl s, nofun, hw⟩
  cases g with
  | slotRefused x st => exact dwindles_slotRefused s x st
  | refused x st => exact dwindles_refused s x st
  | serve =>
    refine nothing (serve_rests (.inl ?_)) Nat.one_pos
    unfold State.accepting
    rw [hst]
    rfl
  | unitEnd st b =>
    obtain ⟨hstands, hnone⟩ := stands_endUnit hnot st b
    change Dwindles s _ (s.endUnit st b)
    exact ⟨hstands, by rw [hnone]; exact nofun, by rw [hnone]; exact Nat.one_pos⟩
  | leaveMounted cause => exact nothing (leaveForReadOnly_of_not_mounted hnot cause) Nat.one_pos
  | written _ _ _ => exact nomatch hg
  | request => exact nomatch hg
  | look => exact nomatch hg

theorem holds_inner {gs : List Signal} (h : ∀ g ∈ gs, g.holds = true) : ∀ g ∈ gs, g.isApart = false := by
  intro g hg
  have hholds := h g hg
  cases g with
  | request => exact nomatch hholds
  | look => exact nomatch hholds
  | _ => rfl

/-- What stands from a state of POWER-HOLD to a later one of the same step. -/
structure Lasts (s t : State) : Prop where
  along : Along s t
  sound : Sound s t
  stands : Stands s t

/-- The happenings of a store in POWER-HOLD come to an end. -/
theorem drain_holds {n : Nat} {gs : List Signal} {s : State} (hst : s.store.st = .powerHold)
    (hgs : ∀ g ∈ gs, g.holds = true) (hw : weightOf gs ≤ n) : ∃ t, drain n gs s = some t ∧ Lasts s t := by
  induction n generalizing gs s with
  | zero =>
    cases gs with
    | nil => exact ⟨s, drain_nil _ _, ⟨.refl s, .refl s, .refl s⟩⟩
    | cons g gs =>
      have hpos : 0 < g.weight := by cases g <;> exact Nat.zero_lt_succ _
      simp [weightOf] at hw
      omega
  | succ n ih =>
    cases gs with
    | nil => exact ⟨s, drain_nil _ _, ⟨.refl s, .refl s, .refl s⟩⟩
    | cons g gs =>
      rw [List.forall_mem_cons] at hgs
      obtain ⟨hg, hgs⟩ := hgs
      obtain ⟨hstands, hholds, hless⟩ := dwindles hst hg
      have hsound := sound_handle_of_not_apart s (holds_inner (gs := [g]) (by simpa using hg) g (List.mem_singleton_self g))
      have halong := along_handle s g
      have hstore : (s.handle g).1.store.st = .powerHold := by
        rw [halong.store (by rw [hst]; exact nofun)]
        exact hst
      obtain ⟨t, hdrain, hlasts⟩ := ih (gs := (s.handle g).2 ++ gs) hstore
        (List.forall_mem_append.mpr ⟨hholds, hgs⟩) (by
          rw [weightOf_append]
          have hsum : weightOf (g :: gs) = g.weight + weightOf gs := rfl
          omega)
      refine ⟨t, ?_, halong.trans hlasts.along, hsound.trans hlasts.sound, hstands.trans hlasts.stands⟩
      rw [drain_cons, queued_inner (holds_inner hholds)]
      exact hdrain

/-- The end of a step that has moved the store to POWER-HOLD: its happenings end, and a grant closes it (R107, R120). -/
theorem conclude_holds {a : Answer} (hst : a.1.store.st = .powerHold) (hgs : ∀ g ∈ a.2, g.holds = true)
    (hw : weightOf a.2 ≤ 400) : ∃ t, conclude a = .next t.grant ∧ Lasts a.1 t := by
  obtain ⟨t, hdrain, hlasts⟩ := drain_holds hst hgs hw
  refine ⟨t, ?_, hlasts⟩
  have hsettle : settle a = some t := by
    unfold settle
    rw [queued_inner (holds_inner hgs), List.append_nil]
    exact hdrain
  have hquiet : conclude (t, []) = .next t.grant := conclude_quiet (.inl (by
    rw [hlasts.along.store (by rw [hst]; exact nofun), hst]
    exact nofun))
  rw [← hquiet]
  unfold conclude
  rw [hsettle, settle_nil]

end Sys2Proof.Machine
end

section
/-! SUPPORT. PFAIL# in each store state: what the move to POWER-HOLD leaves of the requests, the staging list, a mount and
a format (R100, R112, R113, R120, R132, R137). -/

namespace Sys2Proof.Machine

set_option Elab.async false

/-! ### Requests that stand -/

/-- A request that PFAIL# leaves where it is: a READ, or an operation in progress, and no begun erase (R112, R113). -/
structure Stays (a : Sequencer) (x : SlotId) (r : Request) : Prop where
  slot : a.slot x = some r
  open_ : r.op.isWrite = false ∨ r.inProgress = true
  erase : ∀ e, a.erase = some e → e.slot ≠ x

theorem Stays.not_waitingWrite {a : Sequencer} {x : SlotId} {r : Request} (h : Stays a x r) : a.waitingWrite x = false := by
  unfold Sequencer.waitingWrite
  rw [h.slot]
  dsimp only
  rcases h.open_ with hr | hr <;> rw [hr]
  · exact Bool.and_false _
  · rfl

theorem unErase_eq (s : State) (x : SlotId) : s.unErase x = { s with sectors := (s.unErase x).sectors } := by
  unfold State.unErase
  split <;> rfl

theorem dropWaiting_eq (s : State) (x : SlotId) :
    s.dropWaiting x = { s with sectors := (s.dropWaiting x).sectors, arr := (s.dropWaiting x).arr } := by
  unfold State.dropWaiting
  split
  · rw [unErase_eq]
  · rfl

theorem dropWaiting_erase (s : State) (x : SlotId) : (s.dropWaiting x).arr.erase = s.arr.erase := by
  unfold State.dropWaiting
  split
  · rw [unErase_eq]
    cases x <;> rfl
  · rfl

theorem Stays.dropWaiting {s : State} {x : SlotId} {r : Request} (h : Stays s.arr x r) (y : SlotId) :
    Stays (s.dropWaiting y).arr x r := by
  refine ⟨?_, h.open_, fun e he => h.erase e (by rwa [dropWaiting_erase] at he)⟩
  rw [dropWaiting_slot, if_neg]
  · exact h.slot
  · rintro ⟨rfl, hw⟩
    exact nomatch hw.symm.trans h.not_waitingWrite

theorem abandonErase_eq (s : State) :
    s.abandonErase = { s with sectors := s.abandonErase.sectors, arr := s.abandonErase.arr } := by
  unfold State.abandonErase
  split
  · rfl
  · rw [unErase_eq]

theorem abandonErase_erase (s : State) : s.abandonErase.arr.erase = none := by
  unfold State.abandonErase
  split
  · assumption
  · rfl

theorem abandonErase_slot (s : State) (x : SlotId) : s.abandonErase.arr.slot x = s.arr.slot x ∨
    s.abandonErase.arr.slot x = none := by
  unfold State.abandonErase
  split
  · exact .inl rfl
  · rename_i e he
    rw [unErase_eq]
    dsimp only
    rw [slot_setErase, slot_setSlot]
    split
    · exact .inr rfl
    · exact .inl rfl

theorem Stays.abandonErase {s : State} {x : SlotId} {r : Request} (h : Stays s.arr x r) :
    s.abandonErase.arr.slot x = some r := by
  unfold State.abandonErase
  split
  · exact h.slot
  · rename_i e he
    rw [unErase_eq]
    dsimp only
    rw [slot_setErase, slot_setSlot, if_neg (h.erase e he).symm]
    exact h.slot

theorem waitingWrite_abandonErase {s : State} {x : SlotId} (h : s.arr.waitingWrite x = false) :
    s.abandonErase.arr.waitingWrite x = false := by
  rcases abandonErase_slot s x with hx | hx
  · rwa [waitingWrite_of_slot hx]
  · exact waitingWrite_of_none hx

/-- Slot M as an abort leaves it (R112, R132). -/
theorem dropM_slot {s : State} {x : SlotId} {r : Request} (hx : s.arr.slot x = some r)
    (h : r.op.isWrite = false ∨ r.inProgress = true) : s.dropM.arr.slot x = some r := by
  unfold State.dropM
  cases x with
  | m =>
    rw [show s.arr.m = some r from hx]
    have hkeep : (r.inProgress || !r.op.isWrite) = true := by
      rcases h with h | h <;> rw [h]
      · exact Bool.or_true _
      · rfl
    dsimp only
    rw [if_pos hkeep]
    exact hx
  | _ =>
    change s.dropM.arr.slot _ = _
    rcases dropM_cases s with e | e <;> rw [e] <;> exact hx

theorem dropM_waitingWrite (s : State) : s.dropM.arr.waitingWrite .m = false := by
  unfold State.dropM
  cases hm : s.arr.m with
  | none => rfl
  | some r =>
    dsimp only
    split
    · rename_i hkeep
      unfold Sequencer.waitingWrite
      rw [show s.arr.slot .m = some r from hm]
      dsimp only
      revert hkeep
      cases r.inProgress <;> cases r.op.isWrite <;> simp
    · rfl

/-! ### What a move to POWER-HOLD leaves -/

/-- The store has entered POWER-HOLD: beside what every work of the Store Controller leaves, guards, settings and the
requests that stand (R113, R120). -/
structure EntersHold (s w : State) : Prop extends Outer s w where
  st : w.store.st = .powerHold
  guardsKept : w.guards = s.guards
  settingsKept : w.settings = s.settings
  slots : ∀ x r, Stays s.arr x r → w.arr.slot x = some r

/-- What a step that enters POWER-HOLD has left at its end. -/
structure HoldEnds (s w t : State) : Prop where
  store : t.store = w.store
  pins : t.pins = s.pins
  faults : faultsKept s t
  flash : t.flash = s.flash
  guards : t.guards = s.guards
  settings : t.settings = s.settings
  pending : t.pending = s.pending
  queue : t.cu.queue = s.cu.queue
  slots : ∀ x r, Stays s.arr x r → ∃ b, t.arr.slot x = some { r with inProgress := b } ∧ (r.inProgress = true → b = true)

theorem EntersHold.ends {s w t : State} (h : EntersHold s w) (hl : Lasts w t) : HoldEnds s w t.grant := by
  have hst : w.store.st ≠ .mounted := by rw [h.st]; exact nofun
  have hbar : w.writeBar.isSome = true := by
    unfold State.writeBar
    rw [h.st, decide_eq_true rfl, Bool.or_true]
    rfl
  have hstore : t.store = w.store := hl.along.store hst
  have hbar' : t.writeBar.isSome = true := by rw [writeBar_congr hl.along.pins hstore]; exact hbar
  have harr : t.arr = w.arr := hl.sound.arr hst hbar
  have hrest := (granted t).rest
  refine ⟨?_, ?_, ?_, ?_, ?_, ?_, ?_, ?_, fun x r hx => grant_slot_kept (by rw [harr]; exact h.slots x r hx)⟩
  · rw [hrest]
    exact hstore
  · rw [hrest]
    exact hl.along.pins.trans h.pins
  · exact faultsKept_trans h.faults (faultsKept_trans hl.along.faults (faultsKept_of_eq (by rw [hrest])))
  · exact ((granted t).barred hbar').trans ((hl.along.barred hst hbar).trans h.flash)
  · rw [hrest]
    exact hl.stands.guards.trans h.guardsKept
  · rw [hrest]
    exact hl.sound.tells.settings.trans h.settingsKept
  · rw [hrest]
    exact hl.along.pending.trans h.pending
  · rw [hrest]
    show t.cu.queue = s.cu.queue
    rw [hl.along.cu]
    show w.cu.queue = s.cu.queue
    rw [h.cu]

/-! ### From MOUNTED and READ-ONLY -/

theorem stands_dropWaiting (s : State) (x : SlotId) : Stands s (s.dropWaiting x) := by
  rw [dropWaiting_eq]
  exact .same

theorem stands_refuseWaiting (s : State) (st : Status) : Stands s (s.refuseWaiting st).1 :=
  ((stands_dropWaiting s .l).trans (stands_dropWaiting _ .c)).trans (stands_dropWaiting _ .m)

theorem stands_abandonErase (s : State) : Stands s s.abandonErase := by
  rw [abandonErase_eq]
  exact .same

theorem stands_failWaiter (s : State) (st : Status) : Stands s (s.failWaiter st) := by
  have settingsFails (u : State) (f : SettingsFlight) :
      Stands u (if f.phase = .waitingSpace then u.settingsFail st else u) := by
    split
    · exact stands_settingsFail u st
    · exact .refl u
  have commitFails (f : CommitFlight) : Stands s (if f.phase = .waitingSpace then s.commitFail st else s) := by
    split
    · exact stands_commitFail s st
    · exact .refl s
  unfold State.failWaiter
  cases s.tm.commit with
  | none =>
    dsimp only
    split
    · exact settingsFails _ _
    · exact .refl s
  | some f =>
    dsimp only
    split
    · exact (commitFails f).trans (settingsFails _ _)
    · exact commitFails f

/-- The store as PFAIL# finds it in MOUNTED or READ-ONLY, before anything is refused (R120). -/
def heldStore (s : State) : State :=
  { s with
    store := { s.store with st := .powerHold, dirValid := true }
    lw := { s.lw with stopped := true }
    tm := { s.tm with held := s.tm.held || (decide (s.store.st = .mounted) && decide (s.tm.staging ≠ [])) } }

/-- The waiting writes refused and the begun erase abandoned (R112, R113). -/
def heldArray (s : State) : State :=
  ((heldStore s).refuseWaiting .powerFail).1.abandonErase

theorem powerHold_eq (s : State) : s.powerHold =
    (((heldArray s).refuseReady .powerFail).1.failWaiter .powerFail,
      ((heldStore s).refuseWaiting .powerFail).2 ++ ((heldStore s).refuseWaiting .powerFail).1.arr.abandoned ++
        ((heldArray s).refuseReady .powerFail).2) := by
  unfold State.powerHold heldArray heldStore
  by_cases hst : s.store.st = .mounted
  · rw [if_pos hst, decide_eq_true hst]
    rfl
  · rw [if_neg hst, decide_eq_false hst, Bool.false_and, Bool.or_false]

/-- What happens as the store enters POWER-HOLD (R26, R113). -/
theorem powerHold_signals (s : State) : (∀ g ∈ s.powerHold.2, g.holds = true) ∧ weightOf s.powerHold.2 ≤ 400 := by
  have hbarred (u : State) (st : Status) : (∀ g ∈ (u.refuseWaiting st).2, g.holds = true) ∧
      weightOf (u.refuseWaiting st).2 ≤ 10 := by
    change (∀ g ∈ u.barred st, _) ∧ weightOf (u.barred st) ≤ 10
    unfold State.barred
    cases u.arr.waitingWrite .l <;> cases u.arr.waitingWrite .c <;> simp [weightOf, Signal.holds, Signal.weight]
  have habandoned (a : Sequencer) : (∀ g ∈ a.abandoned, g.holds = true) ∧ weightOf a.abandoned ≤ 5 := by
    unfold Sequencer.abandoned
    split <;> simp [weightOf, Signal.holds, Signal.weight]
  have hready (u : State) (st : Status) : (∀ g ∈ (u.refuseReady st).2, g.holds = true) ∧
      weightOf (u.refuseReady st).2 ≤ 6 := by
    unfold State.refuseReady
    cases u.lw.commitReady <;> cases u.lw.reclaimReady <;> simp [weightOf, Signal.holds, Signal.weight]
  obtain ⟨hb, hbw⟩ := hbarred (heldStore s) .powerFail
  obtain ⟨ha, haw⟩ := habandoned ((heldStore s).refuseWaiting .powerFail).1.arr
  obtain ⟨hr, hrw⟩ := hready (heldArray s) .powerFail
  rw [powerHold_eq]
  refine ⟨List.forall_mem_append.mpr ⟨List.forall_mem_append.mpr ⟨hb, ha⟩, hr⟩, ?_⟩
  rw [weightOf_append, weightOf_append]
  omega

theorem heldArray_inner (s : State) : Inner (heldStore s) (heldArray s) :=
  (inner_refuseWaiting _ _).trans (inner_abandonErase _)

theorem heldArray_stays {s : State} {x : SlotId} {r : Request} (h : Stays s.arr x r) :
    (heldArray s).arr.slot x = some r :=
  Stays.abandonErase (((Stays.dropWaiting (s := heldStore s) h .l).dropWaiting .c).dropWaiting .m)

theorem heldArray_waitingWrite (s : State) {x : SlotId} (hx : x ≠ .h) : (heldArray s).arr.waitingWrite x = false := by
  obtain ⟨hl, hc, hm⟩ := nothingWaits_refuseWaiting (heldStore s) .powerFail
  refine waitingWrite_abandonErase ?_
  cases x with
  | h => exact absurd rfl hx
  | l => exact hl
  | c => exact hc
  | m => exact hm

theorem heldArray_tells (s : State) : Tells (heldStore s) (heldArray s) := by
  refine (tells_refuseWaiting _ .powerFail).trans ?_
  unfold heldArray
  rw [abandonErase_eq]
  exact .same

/-- PFAIL# in MOUNTED and READ-ONLY (R113, R120). -/
theorem entersHold_powerHold (s : State) : EntersHold s s.powerHold.1 := by
  have hstore : (heldArray s).store = (heldStore s).store := (heldArray_inner s).store nofun
  have hsound := sound_failWaiter ((heldArray s).refuseReady .powerFail).1 .powerFail
  have hinner := inner_failWaiter ((heldArray s).refuseReady .powerFail).1 .powerFail
  have hstands : Stands (heldStore s) ((heldArray s).refuseReady .powerFail).1 :=
    ((stands_refuseWaiting _ _).trans (stands_abandonErase _)).trans .same
  have hnot : ((heldArray s).refuseReady .powerFail).1.store.st = .powerHold := congrArg StoreCtl.st hstore
  have hbar : ((heldArray s).refuseReady .powerFail).1.writeBar.isSome = true := by
    unfold State.writeBar
    rw [hnot, decide_eq_true rfl, Bool.or_true]
    rfl
  have hne : ((heldArray s).refuseReady .powerFail).1.store.st ≠ .mounted := by rw [hnot]; exact nofun
  refine ⟨outer_powerHold s, ?_, ?_, ?_, fun x r hx => ?_⟩
  · rw [powerHold_eq]
    exact (congrArg StoreCtl.st (hinner.store hne)).trans hnot
  · rw [powerHold_eq]
    exact ((stands_failWaiter _ _).guards.trans hstands.guards)
  · rw [powerHold_eq]
    exact hsound.tells.settings.trans (heldArray_tells s).settings
  · rw [powerHold_eq]
    dsimp only
    rw [hsound.arr hne hbar]
    exact heldArray_stays hx

/-- What PFAIL# leaves of the writes and of the staging list in MOUNTED and READ-ONLY (R26, R69, R113). -/
structure WritesGone (s w : State) : Prop where
  dirValid : w.store.dirValid = true
  stopped : w.lw.stopped = true
  erase : w.arr.erase = none
  waits : ∀ x, x ≠ .h → w.arr.waitingWrite x = false
  staging : w.tm.staging = s.tm.staging
  held : s.store.st = .mounted → s.tm.staging ≠ [] → w.tm.held = true

theorem writesGone_powerHold (s : State) : WritesGone s s.powerHold.1 := by
  have hstore : (heldArray s).store = (heldStore s).store := (heldArray_inner s).store nofun
  have hsound := sound_failWaiter ((heldArray s).refuseReady .powerFail).1 .powerFail
  have hinner := inner_failWaiter ((heldArray s).refuseReady .powerFail).1 .powerFail
  have hstands : Stands (heldStore s) (((heldArray s).refuseReady .powerFail).1.failWaiter .powerFail) :=
    (((stands_refuseWaiting _ _).trans (stands_abandonErase _)).trans .same).trans (stands_failWaiter _ _)
  have hnot : ((heldArray s).refuseReady .powerFail).1.store.st = .powerHold := congrArg StoreCtl.st hstore
  have hbar : ((heldArray s).refuseReady .powerFail).1.writeBar.isSome = true := by
    unfold State.writeBar
    rw [hnot, decide_eq_true rfl, Bool.or_true]
    rfl
  have hne : ((heldArray s).refuseReady .powerFail).1.store.st ≠ .mounted := by rw [hnot]; exact nofun
  have harr : s.powerHold.1.arr = (heldArray s).arr := by
    rw [powerHold_eq]
    exact hsound.arr hne hbar
  refine ⟨?_, ?_, ?_, fun x hx => ?_, ?_, fun hst hne => ?_⟩
  · rw [powerHold_eq]
    exact (congrArg StoreCtl.dirValid (hinner.store hne)).trans (congrArg StoreCtl.dirValid hstore)
  · rw [powerHold_eq]
    exact hstands.stopped
  · rw [harr]
    exact abandonErase_erase _
  · rw [harr]
    exact heldArray_waitingWrite s hx
  · rw [powerHold_eq]
    exact hstands.staging
  · rw [powerHold_eq]
    refine hstands.held ?_
    unfold heldStore
    dsimp only
    rw [decide_eq_true hst, decide_eq_true hne]
    exact Bool.or_true _

/-- It stands to the end of the step. -/
theorem WritesGone.lasts {s w t : State} (h : WritesGone s w) (hst : w.store.st = .powerHold) (hl : Lasts w t) :
    WritesGone s t.grant := by
  have hne : w.store.st ≠ .mounted := by rw [hst]; exact nofun
  have hbar : w.writeBar.isSome = true := by
    unfold State.writeBar
    rw [hst, decide_eq_true rfl, Bool.or_true]
    rfl
  have hstore : t.store = w.store := hl.along.store hne
  have harr : t.arr = w.arr := hl.sound.arr hne hbar
  have hrest := (granted t).rest
  refine ⟨?_, ?_, grant_erase_none (by rw [writeBar_congr hl.along.pins hstore]; exact hbar) (by rw [harr]; exact h.erase),
    fun x hx => waitingWrite_grant (by rw [harr]; exact h.waits x hx), ?_, fun hm hlist => ?_⟩ <;> rw [hrest]
  · exact (congrArg StoreCtl.dirValid hstore).trans h.dirValid
  · exact hl.stands.stopped.trans h.stopped
  · exact hl.stands.staging.trans h.staging
  · exact hl.stands.held (h.held hm hlist)

/-! ### From MOUNTING -/

/-- Changes of the Store Controller and of completions alone. -/
structure Spares (s w : State) : Prop where
  guards : w.guards = s.guards
  settings : w.settings = s.settings
  arr : w.arr = s.arr

theorem Spares.trans {s t u : State} (h1 : Spares s t) (h2 : Spares t u) : Spares s u :=
  ⟨h2.guards.trans h1.guards, h2.settings.trans h1.settings, h2.arr.trans h1.arr⟩

theorem spares_finish (s : State) (code : Byte) (st : Status) (a b c : Nat) : Spares s (s.finish code st a b c) := by
  unfold State.finish
  split <;> exact ⟨rfl, rfl, rfl⟩

/-- A mount that PFAIL# has ended (R132). -/
def mountHeld (s : State) : State :=
  { s with store := { s.store with
      st := .powerHold, result := .aborted, mount := none, scan := MountScan.empty, dirValid := false } }

theorem mountEnds_automatic {s : State} (h : ∀ tag, s.store.mount ≠ some (.command tag)) :
    s.mountEnds .powerHold .aborted .powerFail 0 0 = mountHeld s := by
  unfold State.mountEnds
  dsimp only
  split
  · rename_i tag htag
    exact absurd htag (h tag)
  · rfl

theorem mountEnds_command {s : State} {tag : Byte} (h : s.store.mount = some (.command tag)) :
    s.mountEnds .powerHold .aborted .powerFail 0 0 = (mountHeld s).finish codeMount .powerFail 4 0 0 := by
  unfold State.mountEnds
  dsimp only
  rw [h]
  rfl

theorem mountEnds_spares (s : State) : Spares s (s.mountEnds .powerHold .aborted .powerFail 0 0) ∧
    (s.mountEnds .powerHold .aborted .powerFail 0 0).store = (mountHeld s).store ∧
    (s.mountEnds .powerHold .aborted .powerFail 0 0).sectors = s.sectors := by
  by_cases h : ∃ tag, s.store.mount = some (.command tag)
  · obtain ⟨tag, htag⟩ := h
    rw [mountEnds_command htag]
    refine ⟨Spares.trans (t := mountHeld s) ⟨rfl, rfl, rfl⟩ (spares_finish _ _ _ _ _ _), store_finish _ _ _ _ _ _, ?_⟩
    unfold State.finish
    split <;> rfl
  · rw [mountEnds_automatic fun tag htag => h ⟨tag, htag⟩]
    exact ⟨⟨rfl, rfl, rfl⟩, rfl, rfl⟩

theorem dropM_fields (s : State) : s.dropM.guards = s.guards ∧ s.dropM.settings = s.settings ∧
    s.dropM.sectors = s.sectors ∧ s.dropM.cu = s.cu ∧ s.dropM.arr.erase = s.arr.erase ∧
    s.dropM.store = { s.store with req := s.dropM.store.req } ∧ s.dropM.win = s.win := by
  rcases dropM_cases s with e | e <;> rw [e] <;> exact ⟨rfl, rfl, rfl, rfl, rfl, rfl, rfl⟩

/-- A state whose requests stand, as an abort drops slot M. -/
theorem entersHold_dropM {s w : State} (houter : Outer s w.dropM) (hst : w.store.st = .powerHold)
    (hguards : w.guards = s.guards) (hsettings : w.settings = s.settings)
    (hslots : ∀ x r, Stays s.arr x r → w.arr.slot x = some r) : EntersHold s w.dropM := by
  obtain ⟨hg, hset, -, -, -, hstore, -⟩ := dropM_fields w
  exact ⟨houter, by rw [hstore]; exact hst, hg.trans hguards, hset.trans hsettings, fun x r hx =>
    dropM_slot (hslots x r hx) hx.open_⟩

theorem entersHold_mountAborts (s : State) : EntersHold s s.mountAborts := by
  obtain ⟨hspares, hstore, -⟩ := mountEnds_spares s
  refine entersHold_dropM (outer_mountAborts s) (by rw [hstore]; rfl) hspares.guards hspares.settings fun x r hx => ?_
  rw [hspares.arr]
  exact hx.slot

/-! ### From FORMATTING -/

theorem retireAll_spares (s : State) (l : List SectorIx) : Spares s (s.retireAll l) := by
  unfold State.retireAll
  induction l generalizing s with
  | nil => exact ⟨rfl, rfl, rfl⟩
  | cons i rest ih => exact Spares.trans (t := s.formatRetired i none) ⟨rfl, rfl, rfl⟩ (ih _)

/-- Every listed sector is RETIRED without a location, and no other entry changes (R137). -/
theorem retireAll_sector (s : State) (l : List SectorIx) (j : SectorIx) : (s.retireAll l).sector j =
    if j ∈ l then (s.sector j).toRetired none else s.sector j := by
  unfold State.retireAll
  induction l generalizing s with
  | nil => rfl
  | cons i rest ih =>
    have hfirst : (s.formatRetired i none).sector j = if j = i then (s.sector j).toRetired none else s.sector j :=
      modSector_sector s i _ j
    refine (ih (s.formatRetired i none)).trans ?_
    rw [hfirst]
    by_cases hi : j = i
    · rw [if_pos hi, if_pos (List.mem_cons.mpr (.inl hi))]
      split <;> rfl
    · rw [if_neg hi]
      simp only [List.mem_cons, hi, false_or]

theorem raise_indicated (s : State) (i : Indication) : (s.raise i).indicated i = true := by
  have hmask : i.mask.getLsbD i.bit = true := by cases i <;> decide
  unfold State.raise State.indicated
  rw [BitVec.getLsbD_or, hmask, Bool.or_true]

theorem retireAll_indicated (s : State) {l : List SectorIx} {j : SectorIx} (h : j ∈ l) :
    (s.retireAll l).indicated .sectorRetired = true := by
  cases l with
  | nil => exact nomatch h
  | cons i rest =>
    have hkept : faultsKept (s.formatRetired i none) ((s.formatRetired i none).retireAll rest) :=
      (outer_retireAll _ rest).faults
    exact indicated_of_faultsKept hkept (raise_indicated _ _)

theorem formatListed_eq (f : FormatFlight) : formatListed f = f.listed := by
  unfold formatListed FormatFlight.listed
  cases f.step <;> rfl

theorem abandonErase_sector (s : State) (j : SectorIx) :
    s.abandonErase.sector j = s.sector j ∨ s.abandonErase.sector j = (s.sector j).toErasePending := by
  have herased (x : SlotId) : (s.unErase x).sector j = s.sector j ∨ (s.unErase x).sector j = (s.sector j).toErasePending := by
    unfold State.unErase
    split
    · rw [modSector_sector]
      split
      · exact .inr rfl
      · exact .inl rfl
    · exact .inl rfl
  unfold State.abandonErase
  split
  · exact .inl rfl
  · exact herased _

/-- The sectors of a format that PFAIL# has ended (R137). -/
def formatHeld (s : State) (f : FormatFlight) (keep : Bool) : State :=
  (s.abandonErase.formatUnerase f keep).retireAll f.listed

theorem formatUnerase_spares (s : State) (f : FormatFlight) (keep : Bool) : Spares s (s.formatUnerase f keep) := by
  unfold State.formatUnerase
  split
  · exact ⟨rfl, rfl, rfl⟩
  · split <;> exact ⟨rfl, rfl, rfl⟩
  · exact ⟨rfl, rfl, rfl⟩

theorem formatHeld_spares (s : State) (f : FormatFlight) (keep : Bool) : Spares s.abandonErase (formatHeld s f keep) :=
  (formatUnerase_spares _ f keep).trans (retireAll_spares _ _)

theorem formatAborts_none {s : State} (h : s.store.format = none) : s.formatAborts =
    State.dropM { s.abandonErase with store := { s.store with st := .powerHold, dirValid := false } } := by
  have hstore : s.abandonErase.store = s.store := by rw [abandonErase_eq]
  unfold State.formatAborts
  dsimp only
  rw [hstore, h]

theorem formatAborts_some {s : State} {f : FormatFlight} (h : s.store.format = some f) : ∃ keep,
    ((∀ r, s.abandonErase.arr.m = some r → r.inProgress = false) → keep = false) ∧
      s.formatAborts = ((formatHeld s f keep).formatEnds f .powerHold .powerFail).dropM := by
  have hstore : s.abandonErase.store = s.store := by rw [abandonErase_eq]
  unfold State.formatAborts
  dsimp only
  rw [hstore, h]
  cases hm : s.abandonErase.arr.m with
  | none => exact ⟨false, fun _ => rfl, rfl⟩
  | some r => exact ⟨r.inProgress, fun hr => hr r rfl, rfl⟩

theorem formatEnds_spares (s : State) (f : FormatFlight) (st : StoreState) (status : Status) :
    Spares s (s.formatEnds f st status) ∧ (s.formatEnds f st status).sectors = s.sectors ∧
      (s.formatEnds f st status).win = s.win ∧
      (s.formatEnds f st status).store =
        { s.store with st := st, format := none, dirValid := decide (st = StoreState.mounted) } := by
  unfold State.formatEnds State.finish
  dsimp only
  split <;> exact ⟨⟨rfl, rfl, rfl⟩, rfl, rfl, rfl⟩

theorem entersHold_formatAborts (s : State) : EntersHold s s.formatAborts := by
  have houter := outer_formatAborts s
  have habandon : s.abandonErase.guards = s.guards ∧ s.abandonErase.settings = s.settings := by
    rw [abandonErase_eq]
    exact ⟨rfl, rfl⟩
  obtain ⟨hguards, hsettings⟩ := habandon
  cases hf : s.store.format with
  | none =>
    rw [formatAborts_none hf] at houter ⊢
    exact entersHold_dropM houter rfl hguards hsettings fun x r hx => hx.abandonErase
  | some f =>
    obtain ⟨keep, -, habort⟩ := formatAborts_some hf
    obtain ⟨hends, -, -, hstore⟩ := formatEnds_spares (formatHeld s f keep) f .powerHold .powerFail
    have hspares := (formatHeld_spares s f keep).trans hends
    rw [habort] at houter ⊢
    refine entersHold_dropM houter (by rw [hstore]) (hspares.guards.trans hguards) (hspares.settings.trans hsettings)
      fun x r hx => ?_
    rw [hspares.arr]
    exact hx.abandonErase

/-- The sector of a begun or waiting erase, or of a waiting erase stamp, is ERASE-PENDING (R137). -/
theorem formatHeld_sector {s : State} {f : FormatFlight} {keep : Bool} {j : SectorIx} {todo : List SectorIx}
    (hstep : f.step = .erasing j todo ∨ (f.step = .stamping j todo ∧ keep = false)) (hj : j ∉ f.listed) :
    (formatHeld s f keep).sector j = (s.sector j).toErasePending := by
  have hunerased : (s.abandonErase.formatUnerase f keep).sector j = (s.abandonErase.sector j).toErasePending := by
    unfold State.formatUnerase
    rcases hstep with h | ⟨h, hkeep⟩
    · rw [h]
      exact (modSector_sector _ _ _ _).trans (if_pos rfl)
    · rw [h, hkeep]
      exact (modSector_sector _ _ _ _).trans (if_pos rfl)
  unfold formatHeld
  rw [retireAll_sector, if_neg hj, hunerased]
  rcases abandonErase_sector s j with h | h <;> rw [h]
  rfl

/-! ### Every state -/

theorem entersHold_powerFails (s : State) : EntersHold s s.powerFails.1 := by
  have houter := outer_powerFails s
  unfold State.powerFails at houter ⊢
  cases hst : s.store.st <;> rw [hst] at houter <;> dsimp only at houter ⊢
  case mounted => exact entersHold_powerHold s
  case readOnly => exact entersHold_powerHold s
  case mounting => exact entersHold_mountAborts s
  case formatting => exact entersHold_formatAborts s
  case unmounted => exact ⟨houter, rfl, rfl, rfl, fun x r hx => hx.slot⟩
  case powerHold => exact ⟨houter, hst, rfl, rfl, fun x r hx => hx.slot⟩

theorem powerFails_signals (s : State) : (∀ g ∈ s.powerFails.2, g.holds = true) ∧ weightOf s.powerFails.2 ≤ 400 := by
  have nothing : (∀ g ∈ ([] : List Signal), g.holds = true) ∧ weightOf [] ≤ 400 := ⟨nofun, Nat.zero_le _⟩
  unfold State.powerFails
  cases s.store.st
  case mounted => exact powerHold_signals s
  case readOnly => exact powerHold_signals s
  all_goals exact nothing

/-- The state in which PFAIL# is seen low (R113). -/
def pfailSeen (s : State) : State :=
  (s.setPfail true).raise .powerFail

theorem powerFails_mounted {s : State} (h : s.store.st = .mounted ∨ s.store.st = .readOnly) :
    s.powerFails = s.powerHold := by
  unfold State.powerFails
  rcases h with h | h <;> rw [h]

theorem powerFails_mounting {s : State} (h : s.store.st = .mounting) : s.powerFails = (s.mountAborts, []) := by
  unfold State.powerFails
  rw [h]

theorem powerFails_formatting {s : State} (h : s.store.st = .formatting) : s.powerFails = (s.formatAborts, []) := by
  unfold State.powerFails
  rw [h]

/-- A step without happenings ends in its grant. -/
theorem grant_of_conclude {u t : State} (hst : u.store.st = .powerHold) (h : conclude (u, []) = .next t) : t = u.grant := by
  have hquiet : conclude (u, []) = .next u.grant := conclude_quiet (.inl (by rw [hst]; exact nofun))
  rw [hquiet] at h
  cases h
  rfl

theorem mountAborts_fields (s : State) : s.mountAborts.store.result = .aborted ∧ s.mountAborts.store.mount = none ∧
    s.mountAborts.store.dirValid = false ∧ s.mountAborts.sectors = s.sectors ∧
    s.mountAborts.cu = (s.mountEnds .powerHold .aborted .powerFail 0 0).cu := by
  obtain ⟨-, hstore, hsectors⟩ := mountEnds_spares s
  obtain ⟨-, -, hsec, hcu, -, hst, -⟩ := dropM_fields (s.mountEnds .powerHold .aborted .powerFail 0 0)
  change (State.dropM _).store.result = _ ∧ (State.dropM _).store.mount = _ ∧ (State.dropM _).store.dirValid = _ ∧
    (State.dropM _).sectors = _ ∧ (State.dropM _).cu = _
  rw [hst, hstore]
  exact ⟨rfl, rfl, rfl, hsec.trans hsectors, hcu⟩

theorem formatAborts_dirValid (s : State) : s.formatAborts.store.dirValid = false := by
  cases hf : s.store.format with
  | none =>
    obtain ⟨-, -, -, -, -, hst, -⟩ :=
      dropM_fields { s.abandonErase with store := { s.store with st := .powerHold, dirValid := false } }
    rw [formatAborts_none hf, hst]
  | some f =>
    obtain ⟨keep, -, habort⟩ := formatAborts_some hf
    obtain ⟨-, -, -, -, -, hst, -⟩ := dropM_fields ((formatHeld s f keep).formatEnds f .powerHold .powerFail)
    obtain ⟨-, -, -, hstore⟩ := formatEnds_spares (formatHeld s f keep) f .powerHold .powerFail
    rw [habort, hst, hstore]
    rfl

theorem retireAll_cu (s : State) (l : List SectorIx) : (s.retireAll l).cu = s.cu := by
  unfold State.retireAll
  induction l generalizing s with
  | nil => rfl
  | cons i rest ih => exact ih (s.formatRetired i none)

theorem formatHeld_cu (s : State) (f : FormatFlight) (keep : Bool) : (formatHeld s f keep).cu = s.cu := by
  refine (retireAll_cu _ _).trans (Eq.trans (b := s.abandonErase.cu) ?_ ?_)
  · unfold State.formatUnerase
    split
    · rfl
    · split <;> rfl
    · rfl
  · rw [abandonErase_eq]

/-- What PFAIL# leaves of a format (R113, R137). -/
structure FormatEnded (s : State) (f : FormatFlight) (w : State) : Prop where
  erase : w.arr.erase = none
  waits : w.arr.waitingWrite .m = false
  format : w.store.format = none
  listed : ∀ j ∈ formatListed f, (w.sector j).st = .retired ∧ (w.sector j).retireLoc = none ∧
    w.indicated .sectorRetired = true
  pending : ∀ j todo, f.step = .erasing j todo ∨
    (f.step = .stamping j todo ∧ ∀ r, s.arr.m = some r → r.inProgress = false) → j ∉ formatListed f →
      w.sector j = (s.sector j).toErasePending
  posted : ∀ before tag after, s.cu.flies before 0x51#8 tag after →
    w.cu = s.cu.ended (before ++ after)
      (flightDone 0x51#8 tag .powerFail f.generation (countIn w.sectors .blank) (countIn w.sectors .retired))

theorem formatEnded_formatAborts {s : State} {f : FormatFlight} (hf : s.store.format = some f) :
    FormatEnded s f s.formatAborts := by
  have hlisted := formatListed_eq f
  obtain ⟨keep, hkeep, habort⟩ := formatAborts_some hf
  obtain ⟨hspares, hsec, hwin, hstore⟩ := formatEnds_spares (formatHeld s f keep) f .powerHold .powerFail
  obtain ⟨-, -, hdropSec, hdropCu, hdropErase, hdropStore, hdropWin⟩ :=
    dropM_fields ((formatHeld s f keep).formatEnds f .powerHold .powerFail)
  have hsectors : s.formatAborts.sectors = (formatHeld s f keep).sectors := by rw [habort]; exact hdropSec.trans hsec
  have hwindow : s.formatAborts.win = (formatHeld s f keep).win := by rw [habort]; exact hdropWin.trans hwin
  have hsector (j : SectorIx) : s.formatAborts.sector j = (formatHeld s f keep).sector j := by
    unfold State.sector
    rw [hsectors]
  refine ⟨?_, ?_, ?_, fun j hj => ?_, fun j todo hstep hj => ?_, fun before tag after hfly => ?_⟩
  · rw [habort, hdropErase, hspares.arr, (formatHeld_spares s f keep).arr]
    exact abandonErase_erase s
  · rw [habort]
    exact dropM_waitingWrite _
  · rw [habort, hdropStore, hstore]
  · rw [hlisted] at hj
    refine ⟨?_, ?_, ?_⟩
    · rw [hsector]
      unfold formatHeld
      rw [retireAll_sector, if_pos hj]
      rfl
    · rw [hsector]
      unfold formatHeld
      rw [retireAll_sector, if_pos hj]
      rfl
    · unfold State.indicated
      rw [hwindow]
      exact retireAll_indicated _ hj
  · rw [hlisted] at hj
    rw [hsector]
    refine formatHeld_sector (todo := todo) (hstep.imp id fun h => ⟨h.1, hkeep fun r hr => ?_⟩) hj
    rcases abandonErase_slot s .m with hm | hm
    · exact h.2 r (hm.symm.trans hr)
    · exact nomatch hm.symm.trans hr
  · have hflies : ({ formatHeld s f keep with
        store := { (formatHeld s f keep).store with st := .powerHold, format := none, dirValid := false } } : State).cu.flies
          before 0x51#8 tag after := by
      rw [← formatHeld_cu s f keep] at hfly
      exact hfly
    rw [habort, hdropCu, hdropSec, hsec]
    refine (congrArg State.cu (finish_of_flies hflies .powerFail f.generation _ _)).trans ?_
    dsimp only
    rw [formatHeld_cu]
    rfl

/-- Settles O20, by the state of the store. -/
theorem pfailEntersPowerHold : Obligations.PfailEntersPowerHold := by
  refine ⟨fun s hlow hreset => ?_, fun s => ⟨rfl, fun hst => ?_⟩⟩
  · have hexec : exec .pfailAsserted s = conclude (pfailSeen s).powerFails := by
      change execPfailAsserted s = _
      unfold execPfailAsserted
      rw [hlow, hreset]
      rfl
    have henters := entersHold_powerFails (pfailSeen s)
    obtain ⟨hsignals, hweight⟩ := powerFails_signals (pfailSeen s)
    obtain ⟨t, hconclude, hlasts⟩ := conclude_holds henters.st hsignals hweight
    have hends := henters.ends hlasts
    refine ⟨t.grant, hexec.trans hconclude, ?_, hends.pins, indicated_of_faultsKept hends.faults (raise_indicated _ _),
      hends.flash, ?_, hends.guards, hends.settings, hends.pending, hends.queue,
      fun x r hx hopen herase => hends.slots x r ⟨hx, hopen, herase⟩, fun hst => ?_, fun hst hlist => ?_, fun hst => ?_,
      fun f hst hf => ?_⟩
    · rw [hends.store]
      exact henters.st
    · rw [hends.store]
      cases hst : s.store.st
      case mounted =>
        rw [powerFails_mounted (s := pfailSeen s) (.inl hst)]
        exact (writesGone_powerHold _).dirValid
      case readOnly =>
        rw [powerFails_mounted (s := pfailSeen s) (.inr hst)]
        exact (writesGone_powerHold _).dirValid
      case mounting =>
        obtain ⟨-, -, hdir, -⟩ := mountAborts_fields (pfailSeen s)
        rw [powerFails_mounting (s := pfailSeen s) hst]
        exact hdir
      case formatting =>
        rw [powerFails_formatting (s := pfailSeen s) hst]
        exact formatAborts_dirValid _
      case unmounted =>
        unfold State.powerFails
        rw [show (pfailSeen s).store.st = _ from hst]
      case powerHold =>
        unfold State.powerFails
        rw [show (pfailSeen s).store.st = _ from hst]
        rfl
    · have hgone := writesGone_powerHold (pfailSeen s)
      rw [← powerFails_mounted (s := pfailSeen s) hst] at hgone
      have hlast := hgone.lasts henters.st hlasts
      exact ⟨hlast.stopped, hlast.erase, hlast.waits .l nofun, hlast.waits .c nofun, hlast.waits .m nofun, hlast.staging⟩
    · have hgone := writesGone_powerHold (pfailSeen s)
      rw [← powerFails_mounted (s := pfailSeen s) (.inl hst)] at hgone
      exact (hgone.lasts henters.st hlasts).held hst hlist
    · obtain ⟨hresult, hmount, -, hsectors, hcu⟩ := mountAborts_fields (pfailSeen s)
      rw [powerFails_mounting (s := pfailSeen s) hst] at hconclude henters
      rw [grant_of_conclude henters.st hconclude]
      have hrest := (granted (pfailSeen s).mountAborts).rest
      refine ⟨waitingWrite_grant (dropM_waitingWrite _), ?_, ?_, ?_, fun hauto => ?_, fun before tag after hown hfly => ?_⟩ <;>
        rw [hrest]
      · exact hresult
      · exact hmount
      · exact hsectors
      · refine hcu.trans ?_
        rw [mountEnds_automatic]
        · rfl
        · intro tag htag
          exact nomatch hauto.symm.trans htag
      · refine hcu.trans ?_
        rw [mountEnds_command (s := pfailSeen s) hown]
        exact congrArg State.cu (finish_of_flies (s := mountHeld (pfailSeen s)) hfly _ _ _ _)
    · rw [powerFails_formatting (s := pfailSeen s) hst] at hconclude henters
      rw [grant_of_conclude henters.st hconclude]
      have hends := formatEnded_formatAborts (s := pfailSeen s) hf
      have hbar : (pfailSeen s).formatAborts.writeBar.isSome = true := by
        unfold State.writeBar
        rw [henters.st, decide_eq_true rfl, Bool.or_true]
        rfl
      have hrest := (granted (pfailSeen s).formatAborts).rest
      refine ⟨grant_erase_none hbar hends.erase, waitingWrite_grant hends.waits, ?_, ?_, ?_, ?_⟩ <;> rw [hrest]
      · exact hends.format
      · exact hends.listed
      · exact hends.pending
      · exact hends.posted
  · unfold State.writeBar
    dsimp only
    rw [decide_eq_true hst]
    rfl

end Sys2Proof.Machine
end

section
/-! SUPPORT. The operations of slot M as they end, the Store Controller's next request, and the end of a mount (R105,
R112, R131, R133). -/

namespace Sys2Proof.Machine

set_option Elab.async false

/-! ### Slot M -/

section Ends
variable {s : State} {op : ArrayOp} {q : MRequest}

theorem inHandM_of (h : performs s .m op) (hreq : s.store.req = some q) : s.inHandM = some (q, op) := by
  obtain ⟨hbusy, hslot⟩ := h
  unfold State.inHandM
  rw [hreq, inHand_of hbusy hslot]

theorem releaseM_programmed (sec : SectorIx) (line : Nat) (data : List Byte) (v : Verify) :
    (s.programmed sec line data v).releaseM = storeOver (programOver s .m sec line data v) := by
  cases v <;> rfl

theorem releaseM_readSpan {ln k n : Nat} (hn : (s.readSpan ln k).2.freeCount = n) :
    (s.readSpan ln k).2.releaseM = storeOver (readOver s n .m) := by
  obtain ⟨d, hd⟩ := readSpan_drawn s ln k
  rw [hd] at hn ⊢
  subst hn
  rfl

theorem releaseM_readRecord {sec : SectorIx} {p n : Nat} {len : ReadLen} {r : ReadOutcome}
    (hn : (s.readRecord sec p len r).2.freeCount = n) :
    (s.readRecord sec p len r).2.releaseM = storeOver (readOver s n .m) := releaseM_readSpan hn

/-- Bytes after a program of slot M: a passed one has stored to its line, a failed one to none (R103). -/
theorem bytesKept_programOver {u : State} {x : SlotId} {sec : SectorIx} {line : Nat} {data : List Byte} {v : Verify}
    (h : u.flash = (programOver s x sec line data v).flash) :
    bytesKept s u fun ln => v = .passed ∧ ln = lineNo sec line := by
  cases v with
  | passed => exact fun ln i hi hne => bytesKept_endProgram h ln i hi fun heq => hne ⟨rfl, heq⟩
  | failed => exact bytesKept_failProgram _ h

/-- Outside MOUNTED the engine does not look: a grant closes the step (R84, R107). -/
theorem endsIn_of_conclude {c : Instr} {u : State} {stored : Nat → Prop} (h : exec c s = conclude (u, []))
    (hst : u.store.st ≠ .mounted) (hb : bytesKept s u stored) : endsIn c s u stored :=
  endsIn_of (h.trans (conclude_quiet (.inl hst))) hb

theorem concludesIn_of_conclude {c : Instr} {u : State} {stored : Nat → Prop} (h : exec c s = conclude (u, []))
    (hb : bytesKept s u stored) : concludesIn c s u stored :=
  Pends.concludes (queued_nil [] ▸ pends_of_conclude h hb)

end Ends

/-- With slot M empty, what nothing bars is placed there (R106, R112). -/
theorem placeM_joins {u : State} {op : ArrayOp} (purpose : MPurpose) (hm : u.arr.m = none)
    (h : op.isWrite = false ∨ ¬ barHolds u) : u.placeM purpose op = storeAsks u purpose op := by
  unfold State.placeM
  rw [hm]
  dsimp only
  rw [place_joins h]
  rfl

/-- Nothing bars the writes of a mount or a format but PFAIL# (R112). -/
theorem not_barHolds_of_storeWork {u : State} (hlow : u.pins.pfailLow = false)
    (hst : u.store.st = .mounting ∨ u.store.st = .formatting) : ¬ barHolds u := by
  unfold barHolds
  rw [hlow]
  rcases hst with hst | hst <;> rw [hst] <;> simp

/-! ### A sector lost to an opening -/

section Lost
variable {s u : State} {o k : SectorIx}

theorem blank_of_lost (hsec : ∀ j, u.sector j = if j = o then pendingEntry (s.sector o) else s.sector j) {j : SectorIx}
    (h : (u.sector j).st = .blank) : j ≠ o ∧ u.sector j = s.sector j := by
  rw [hsec] at h ⊢
  by_cases hj : j = o
  · rw [if_pos hj] at h
    exact nomatch h
  · exact ⟨hj, if_neg hj⟩

/-- The next candidate is the best of the BLANK sectors left (R32). -/
theorem candidate_of_lost (hsec : ∀ j, u.sector j = if j = o then pendingEntry (s.sector o) else s.sector j)
    (h : bestBlankBut s o k) : u.candidate = some k := by
  obtain ⟨hne, hblank, hbest⟩ := h
  have hsame : u.sector k = s.sector k := (hsec k).trans (if_neg hne)
  refine candidate_of_lowest (by rw [hsame]; exact hblank) fun j hj => ?_
  obtain ⟨hj', heq⟩ := blank_of_lost hsec hj
  rw [hsame, heq]
  exact hbest j hj' (heq ▸ hj)

theorem candidate_none_of_lost (hsec : ∀ j, u.sector j = if j = o then pendingEntry (s.sector o) else s.sector j)
    (h : ∀ j, j ≠ o → (s.sector j).st ≠ .blank) : u.candidate = none :=
  candidate_none.mpr fun j hj => by
    obtain ⟨hne, heq⟩ := blank_of_lost hsec hj
    exact h j hne (heq ▸ hj)

theorem blankCount_eq_zero {u : State} (h : u.candidate = none) : u.blankCount = 0 := by
  unfold State.blankCount
  rw [bestOf_eq_none.mp h]
  rfl

end Lost

/-! ### The end of a mount -/

section MountEnd
variable {u : State} {st : StoreState} {result : MountResult} {status : Status} {b c : Nat}

/-- The store as the end of a mount leaves it (R131, R133). -/
def mountLeft (u : State) (st : StoreState) (result : MountResult) : State :=
  { u with store := { u.store with
      st := st, result := result, mount := none, scan := MountScan.empty
      dirValid := decide (st = .mounted) || decide (st = .readOnly) } }

theorem mountEnds_of_automatic (h : u.store.mount = some .automatic) :
    u.mountEnds st result status b c = mountLeft u st result := by
  unfold State.mountEnds
  rw [h]
  rfl

theorem mountEnds_of_command {before after : List (Byte × Byte)} {tag : Byte} (h : u.store.mount = some (.command tag))
    (hfly : u.cu.flies before 0x50#8 tag after) : u.mountEnds st result status b c =
      { mountLeft u st result with
        cu := u.cu.ended (before ++ after) (flightDone 0x50#8 tag status result.code b c) } := by
  have hends : u.mountEnds st result status b c = (mountLeft u st result).finish codeMount status result.code b c := by
    unfold State.mountEnds
    rw [h]
    rfl
  exact hends.trans (finish_of_flies (s := mountLeft u st result) hfly status result.code b c)

variable {cause : Cause} {repair : Bool}

theorem mountLeft_of_done (hrepair : u.store.scan.repair = repair) (hcause : u.store.cause = cause) :
    mountLeft (u.raiseIf repair .mountRepaired) (if cause = .none then .mounted else .readOnly)
      (if repair then .repaired else .clean) = mountOver u cause repair := by
  subst hrepair hcause
  unfold mountLeft mountOver State.raiseIf
  by_cases hc : u.store.cause = .none
  · cases hr : u.store.scan.repair <;> simp [hc, State.raise, Window.raised]
  · cases hr : u.store.scan.repair <;> simp [hc, State.raise, Window.raised]

/-- The end of a mount in OPEN, by its read-only cause (R131). -/
theorem mountDone_eq (hrepair : u.store.scan.repair = repair) (hcause : u.store.cause = cause) : u.mountDone =
    (u.raiseIf repair .mountRepaired).mountEnds (if cause = .none then .mounted else .readOnly)
      (if repair then .repaired else .clean) (if cause = .none then .ok else .readOnly) u.dir.length u.blankCount := by
  subst hrepair hcause
  unfold State.mountDone
  by_cases hc : u.store.cause = .none
  · simp only [hc, if_true]
  · simp only [hc, if_false]

theorem mountDone_automatic (hrepair : u.store.scan.repair = repair) (hcause : u.store.cause = cause)
    (h : u.store.mount = some .automatic) : u.mountDone = mountOver u cause repair := by
  rw [mountDone_eq hrepair hcause, mountEnds_of_automatic, mountLeft_of_done hrepair hcause]
  rw [(calm_raiseIf u _ _).store]
  exact h

theorem mountDone_command {before after : List (Byte × Byte)} {tag : Byte} (hrepair : u.store.scan.repair = repair)
    (hcause : u.store.cause = cause) (h : u.store.mount = some (.command tag))
    (hfly : u.cu.flies before 0x50#8 tag after) : u.mountDone =
      { mountOver u cause repair with
        cu := u.cu.ended (before ++ after)
          (flightDone 0x50#8 tag (if cause = .none then .ok else .readOnly) (if repair then 2 else 1) u.dir.length
            (countIn u.sectors .blank)) } := by
  have hcu : (u.raiseIf repair .mountRepaired).cu = u.cu := by
    unfold State.raiseIf
    split <;> rfl
  have hcode : (if repair then MountResult.repaired else MountResult.clean).code = if repair then 2 else 1 := by
    cases repair <;> rfl
  rw [mountDone_eq hrepair hcause, mountEnds_of_command (by rw [(calm_raiseIf u _ _).store]; exact h)
    (by rw [hcu]; exact hfly), mountLeft_of_done hrepair hcause, hcu, hcode]
  rfl

end MountEnd

/-! ### The open stamp of a mount -/

section OpenStamp
variable {s : State} {k : SectorIx} {a q : Nat} {data : List Byte}

theorem exec_mountOpenStampEnd (h : performs s .m (.program k 1 data))
    (hreq : s.store.req = some { purpose := .mountOpen k a q, abandoned := false }) (v : Verify) :
    exec (.mountOpenStampEnd v) s = conclude ((storeOver (programOver s .m k 1 data v)).mountOpened k a q v, []) := by
  change execMountOpenStampEnd v s = _
  unfold execMountOpenStampEnd
  rw [inHandM_of h hreq]
  dsimp only
  rw [releaseM_programmed]
  rfl

/-- The open stamp of the next candidate is requested (R131). -/
theorem mountOpenNext_of_candidate {u : State} {j : SectorIx} (hj : u.candidate = some j) (hm : u.arr.m = none)
    (hbar : ¬ barHolds u) : u.mountOpenNext =
      storeAsks { u with lw := { u.lw with actCtr := u.lw.actCtr + 1 } } (.mountOpen j u.lw.actCtr u.lw.seqCtr)
        (.program j 1 (openStampLine u.lw.actCtr u.lw.seqCtr)) := by
  unfold State.mountOpenNext
  rw [hj]
  exact placeM_joins _ hm (.inr hbar)

/-- The read-only cause set. -/
def causeSet (u : State) (cause : Cause) : State :=
  { u with store := { u.store with cause := cause } }

/-- Without a candidate the cause is NO-SECTOR (R131). -/
theorem mountOpenNext_of_none {u : State} (h : u.candidate = none) :
    u.mountOpenNext = (causeSet u .noSector).mountDone := by
  unfold State.mountOpenNext
  rw [h]
  rfl

/-- The state in which a mount has opened its sector (R28, R131). -/
def mountSectorOpened (s : State) (k : SectorIx) (a q : Nat) (data : List Byte) : State :=
  { storeOver (programOver s .m k 1 data .passed) with
    sectors := s.sectors.set k.val (openedEntry (s.sector k) a q) k.isLt
    lw := { s.lw with point := some { sector := k, line := 2 } } }

/-- The state in which the open stamp of a mount has failed (R28, R131). -/
def mountSectorLost (s : State) (k : SectorIx) (data : List Byte) : State :=
  { storeOver (programOver s .m k 1 data .failed) with
    sectors := s.sectors.set k.val (pendingEntry (s.sector k)) k.isLt
    win := s.win.raised .programFault }

theorem mountSectorLost_sector (j : SectorIx) : (mountSectorLost s k data).sector j =
    if j = k then pendingEntry (s.sector k) else s.sector j := vector_get_set _ _ _ _

end OpenStamp

/-- Settles O58, by the verify and the sectors left. -/
theorem mountOpenStampEnd : Obligations.MountOpenStampEnd := by
  intro s k a q data hperf hreq hst hlow hcause gone window result code done
  have hbar : ¬ barHolds s := not_barHolds_of_storeWork hlow (.inl hst)
  refine ⟨?_, ?_⟩
  · intro sectors u stored
    have hexec := exec_mountOpenStampEnd hperf hreq .passed
    rw [show (storeOver (programOver s .m k 1 data .passed)).mountOpened k a q .passed =
      (mountSectorOpened s k a q data).mountDone from rfl] at hexec
    refine ⟨fun howner => ?_, fun before tag after howner hfly => ?_⟩
    · rw [mountDone_automatic (u := mountSectorOpened s k a q data) rfl hcause howner] at hexec
      exact concludesIn_of_conclude hexec (bytesKept_endProgram rfl)
    · rw [mountDone_command (u := mountSectorOpened s k a q data) rfl hcause howner hfly] at hexec
      exact concludesIn_of_conclude hexec (bytesKept_endProgram rfl)
  · intro sectors u
    have hexec := exec_mountOpenStampEnd hperf hreq .failed
    rw [show (storeOver (programOver s .m k 1 data .failed)).mountOpened k a q .failed =
      (mountSectorLost s k data).mountOpenNext from rfl] at hexec
    refine ⟨fun j hj => ?_, fun hnone => ⟨fun howner => ?_, fun before tag after howner hfly => ?_⟩⟩
    · rw [mountOpenNext_of_candidate (candidate_of_lost mountSectorLost_sector hj) rfl hbar] at hexec
      exact endsIn_of_conclude hexec (fun hm => nomatch hst.symm.trans hm)
        (bytesKept_failProgram _ rfl)
    · rw [mountOpenNext_of_none (candidate_none_of_lost mountSectorLost_sector hnone),
        mountDone_automatic (u := causeSet (mountSectorLost s k data) .noSector) rfl rfl howner] at hexec
      exact endsIn_of_conclude hexec nofun (bytesKept_failProgram _ rfl)
    · have hblank : countIn (causeSet (mountSectorLost s k data) .noSector).sectors .blank = 0 :=
        blankCount_eq_zero (candidate_none_of_lost (mountSectorLost_sector (data := data)) hnone)
      rw [mountOpenNext_of_none (candidate_none_of_lost mountSectorLost_sector hnone),
        mountDone_command (u := causeSet (mountSectorLost s k data) .noSector) rfl rfl howner hfly, hblank] at hexec
      exact endsIn_of_conclude hexec nofun (bytesKept_failProgram _ rfl)

end Sys2Proof.Machine
end

section
/-! SUPPORT. FORMAT's shared work by what it makes of the state: its ends, the sectors it takes, the candidate it opens,
the RETIRE records it requests (R135, R136). -/

namespace Sys2Proof.Machine

set_option Elab.async false

/-! ### Ends -/

section Ends
variable {u : State} {f : FormatFlight} {before after : List (Byte × Byte)} {tag : Byte}

theorem formatEnds_of_flies (h : u.cu.flies before 0x51#8 tag after) (st : StoreState) (status : Status) :
    u.formatEnds f st status = { u with
      store := { u.store with st := st, format := none, dirValid := decide (st = .mounted) }
      cu := u.cu.ended (before ++ after) (flightDone 0x51#8 tag status f.generation (countIn u.sectors .blank)
        (countIn u.sectors .retired)) } := by
  unfold State.formatEnds
  exact finish_of_flies (s := { u with store := { u.store with
    st := st, format := none, dirValid := decide (st = StoreState.mounted) } }) h _ _ _ _

theorem formatDone_of_flies (h : u.cu.flies before 0x51#8 tag after) :
    u.formatDone f = formatMounted u f (before ++ after) tag := by
  unfold State.formatDone
  exact formatEnds_of_flies (u := { u with store := { u.store with result := .clean } }) h _ _

theorem raised_raised (w : Window) (i : Indication) : (w.raised i).raised i = w.raised i := by
  unfold Window.raised
  simp only [BitVec.or_assoc, BitVec.or_self]

theorem retireAll_win (u : State) (l : List SectorIx) :
    (u.retireAll l).win = if l = [] then u.win else u.win.raised .sectorRetired := by
  unfold State.retireAll
  induction l generalizing u with
  | nil => rfl
  | cons i rest ih =>
    refine (ih (u.formatRetired i none)).trans ?_
    rw [if_neg (List.cons_ne_nil i rest)]
    split
    · rfl
    · exact raised_raised u.win _

/-- The sectors with every one of a list RETIRED without a location (R136). -/
def sectorsRetired (u : State) (l : List SectorIx) : Vector SectorEntry 32 :=
  Vector.ofFn fun j => if j ∈ l then { u.sector j with st := .retired, live := 0, dead := 0, retireLoc := none }
    else u.sector j

theorem vector_ofFn_sector {u : State} {g : SectorIx → SectorEntry} (h : ∀ j, u.sector j = g j) :
    u.sectors = Vector.ofFn g := by
  refine Vector.ext fun i hi => ?_
  rw [Vector.getElem_ofFn]
  exact h ⟨i, hi⟩

theorem vector_get_ofFn (g : SectorIx → SectorEntry) (j : SectorIx) : (Vector.ofFn g).get j = g j := by
  change (Vector.ofFn g)[j.val] = g j
  rw [Vector.getElem_ofFn]

/-- Bytes stand as long as the array does. -/
theorem bytesKept_congr {s u v : State} {stored : Nat → Prop} (h : bytesKept s u stored) (hflash : v.flash = u.flash) :
    bytesKept s v stored := fun ln i hi hne => by rw [hflash]; exact h ln i hi hne

theorem retireAll_fields (u : State) (l : List SectorIx) :
    u.retireAll l = { u with sectors := (u.retireAll l).sectors, win := (u.retireAll l).win } := by
  unfold State.retireAll
  induction l generalizing u with
  | nil => rfl
  | cons i rest ih => exact ih (u.formatRetired i none)

theorem retireAll_eq (u : State) (l : List SectorIx) : u.retireAll l = { u with
    sectors := sectorsRetired u l, win := if l = [] then u.win else u.win.raised .sectorRetired } := by
  have hsectors : (u.retireAll l).sectors = sectorsRetired u l := vector_ofFn_sector (retireAll_sector u l)
  rw [retireAll_fields, hsectors, retireAll_win]

/-- The end with fewer than 3 BLANK sectors, or without a candidate (R136; log 23). -/
theorem formatFails_of_flies (h : u.cu.flies before 0x51#8 tag after) :
    u.formatFails f = formatFewer u f (before ++ after) tag := by
  unfold State.formatFails
  dsimp only
  rw [retireAll_eq]
  exact formatEnds_of_flies (u := { u with
    lw := LogWriter.reset, sectors := sectorsRetired u f.toRetire
    win := if f.toRetire = [] then u.win else u.win.raised .sectorRetired }) h _ _

end Ends

/-! ### Openings and RETIRE records -/

section Requests
variable {u : State} {f : FormatFlight}

theorem formatOpenNext_of_candidate {k : SectorIx} (hk : u.candidate = some k) (hm : u.arr.m = none)
    (hbar : ¬ barHolds u) : u.formatOpenNext f =
      storeAsks
        { u with
          lw := { u.lw with actCtr := u.lw.actCtr + 1 }
          store := { u.store with format := some { f with step := .opening k } } }
        (.formatOpen k u.lw.actCtr u.lw.seqCtr) (.program k 1 (openStampLine u.lw.actCtr u.lw.seqCtr)) := by
  unfold State.formatOpenNext
  rw [hk]
  exact placeM_joins _ hm (.inr hbar)

theorem formatOpenNext_of_none (h : u.candidate = none) : u.formatOpenNext f = u.formatFails f := by
  unfold State.formatOpenNext
  rw [h]

/-- The append point and the counters as a RETIRE record of FORMAT is requested at a place (R136). -/
def retireAsked (u : State) (f : FormatFlight) (i : SectorIx) (todo : List SectorIx) (p : AppendPoint) : State :=
  { u with
    lw := { u.lw with seqCtr := u.lw.seqCtr + 1, point := some { p with line := p.line + 1 } }
    sectors := (u.modSector p.sector SectorEntry.addDead).sectors
    store := { u.store with format := some { f with step := .retiring i todo } } }

theorem formatRetireNext_cons {p : AppendPoint} (hp : u.lw.point = some p) (hm : u.arr.m = none) (hbar : ¬ barHolds u)
    (i : SectorIx) (todo : List SectorIx) : u.formatRetireNext f (i :: todo) = formatRetires u u.lw f i todo p := by
  have hnext : u.formatRetireNext f (i :: todo) = (retireAsked u f i todo p).placeM (.formatRetire i)
      (.program p.sector p.line ((retireRecord i u.lw.seqCtr).lineData 0)) := by
    unfold State.formatRetireNext
    rw [hp]
    rfl
  rw [hnext, placeM_joins (u := retireAsked u f i todo p)]
  · rfl
  · exact hm
  · exact .inr hbar

theorem formatRetireNext_nil : u.formatRetireNext f [] = u.formatDone f := rfl

/-! ### The sectors one at a time -/

/-- The state with the sectors of a list ERASE-PENDING (R135). -/
def wornOut (u : State) (worn : List SectorIx) : State :=
  { u with sectors := Vector.ofFn (fun j => if j ∈ worn then pendingEntry (u.sector j) else u.sector j) }

/-- The format with the sectors of a list joined to its list to retire (R135). -/
def FormatFlight.listing (f : FormatFlight) (worn : List SectorIx) : FormatFlight :=
  { f with toRetire :=
      if worn = [] then f.toRetire else allSectors.filter (fun j => decide (j ∈ f.toRetire ∨ j ∈ worn)) }

theorem wornOut_sector (worn : List SectorIx) (j : SectorIx) :
    (wornOut u worn).sector j = if j ∈ worn then pendingEntry (u.sector j) else u.sector j := by
  unfold wornOut
  exact vector_get_ofFn _ j

theorem wornOut_eraseCount (worn : List SectorIx) (j : SectorIx) :
    ((wornOut u worn).sector j).eraseCount = (u.sector j).eraseCount := by
  rw [wornOut_sector]
  split <;> rfl

theorem wornOut_nil : wornOut u [] = u := by
  have hsectors : u.sectors = Vector.ofFn fun j =>
      if j ∈ ([] : List SectorIx) then pendingEntry (u.sector j) else u.sector j :=
    vector_ofFn_sector fun j => (if_neg List.not_mem_nil).symm
  unfold wornOut
  rw [← hsectors]

theorem wornOut_cons (i : SectorIx) (worn : List SectorIx) :
    wornOut (u.modSector i SectorEntry.toErasePending) worn = wornOut u (i :: worn) := by
  have hentry (j : SectorIx) : (if j ∈ worn then pendingEntry ((u.modSector i SectorEntry.toErasePending).sector j)
      else (u.modSector i SectorEntry.toErasePending).sector j) =
        if j ∈ i :: worn then pendingEntry (u.sector j) else u.sector j := by
    rw [modSector_sector]
    by_cases hj : j = i
    · rw [if_pos hj, if_pos (List.mem_cons.mpr (.inl hj))]
      split <;> rfl
    · rw [if_neg hj]
      simp only [List.mem_cons, hj, false_or]
  unfold wornOut
  rw [funext hentry]
  rfl

theorem mem_joinRetire {l : List SectorIx} {i j : SectorIx} : j ∈ joinRetire l i ↔ j ∈ l ∨ j = i := by
  unfold joinRetire
  rw [List.mem_filter, Bool.or_eq_true, List.contains_iff_mem, decide_eq_true_iff]
  exact and_iff_right (List.mem_finRange j)

theorem listing_cons (i : SectorIx) (worn : List SectorIx) :
    FormatFlight.listing { f with toRetire := joinRetire f.toRetire i } worn = f.listing (i :: worn) := by
  have hlist : (if worn = [] then joinRetire f.toRetire i
      else allSectors.filter fun j => decide (j ∈ joinRetire f.toRetire i ∨ j ∈ worn)) =
        allSectors.filter fun j => decide (j ∈ f.toRetire ∨ j ∈ i :: worn) := by
    cases worn with
    | nil =>
      rw [if_pos rfl]
      refine List.filter_congr fun j _ => ?_
      rw [Bool.eq_iff_iff]
      simp
    | cons k rest =>
      rw [if_neg (List.cons_ne_nil k rest)]
      refine List.filter_congr fun j _ => ?_
      rw [Bool.eq_iff_iff]
      simp only [decide_eq_true_iff, mem_joinRetire, List.mem_cons, or_assoc]
  unfold FormatFlight.listing
  rw [if_neg (List.cons_ne_nil i worn)]
  exact congrArg (fun l => { f with toRetire := l }) hlist

/-- The sectors at the endurance limit are listed, and the others follow (R39, R135). -/
theorem formatTake_worn {worn : List SectorIx} (h : ∀ j ∈ worn, 100000 ≤ (u.sector j).eraseCount) (rest : List SectorIx) :
    u.formatTake f (worn ++ rest) = (wornOut u worn).formatTake (f.listing worn) rest := by
  induction worn generalizing u f with
  | nil =>
    rw [wornOut_nil]
    rfl
  | cons i worn ih =>
    obtain ⟨hi, hworn⟩ := List.forall_mem_cons.mp h
    have hcount (j : SectorIx) :
        ((u.modSector i SectorEntry.toErasePending).sector j).eraseCount = (u.sector j).eraseCount := by
      rw [modSector_sector]
      split <;> rfl
    rw [List.cons_append, State.formatTake, if_pos (show Config.enduranceLimit ≤ _ from hi),
      ih fun j hj => (hworn j hj).trans_eq (hcount j).symm, wornOut_cons, listing_cons]

theorem formatTake_erases {k : SectorIx} (hk : (u.sector k).eraseCount < 100000) (hm : u.arr.m = none)
    (hbar : ¬ barHolds u) (more : List SectorIx) : u.formatTake f (k :: more) = formatErases u f k more := by
  rw [State.formatTake, if_neg (not_le.mpr (show (u.sector k).eraseCount < Config.enduranceLimit from hk))]
  exact placeM_joins _ hm (.inr hbar)

/-- A format between two requests: it is not held up by PFAIL#, slot M is empty, and what the step has done to the
array is known. -/
structure Formatting (s u : State) (stored : Nat → Prop) : Prop where
  st : u.store.st = .formatting
  high : u.pins.pfailLow = false
  free : u.arr.m = none
  bytes : bytesKept s u stored

section Takes
variable {c : Instr} {s : State} {stored : Nat → Prop}

theorem Formatting.bar (hu : Formatting s u stored) : ¬ barHolds u := not_barHolds_of_storeWork hu.high (.inr hu.st)

theorem Formatting.ne_mounted (hu : Formatting s u stored) : u.store.st ≠ .mounted := fun hm => nomatch hu.st.symm.trans hm

theorem Formatting.wornOut (hu : Formatting s u stored) (worn : List SectorIx) :
    Formatting s (wornOut u worn) stored := by
  obtain ⟨hst, hhigh, hfree, hbytes⟩ := hu
  unfold Machine.wornOut
  exact ⟨hst, hhigh, hfree, fun ln i hi hne => hbytes ln i hi hne⟩

/-- The next sector, below the endurance limit, is erased (R135). -/
theorem Formatting.erases (hu : Formatting s u stored) {k : SectorIx} {more : List SectorIx}
    (h : exec c s = conclude (u.formatTake f (k :: more), [])) (hk : (u.sector k).eraseCount < 100000) :
    endsIn c s (formatErases u f k more) stored := by
  rw [formatTake_erases hk hu.free hu.bar] at h
  exact endsIn_of_conclude h hu.ne_mounted (bytesKept_congr hu.bytes rfl)

/-- The counters as FORMAT sets them (R136). -/
def countersSet (u : State) : State :=
  { u with lw := { u.lw with seqCtr := 1, actCtr := 1, txnCtr := 1 } }

/-- After the last sector, with 3 BLANK ones or more, the candidate is opened (R136). -/
theorem Formatting.opens (hu : Formatting s u stored) {k : SectorIx} (h : exec c s = conclude (u.formatTake f [], []))
    (hblank : 3 ≤ countIn u.sectors .blank) (hk : u.candidate = some k) :
    endsIn c s
      (storeAsks
        { u with
          lw := { u.lw with seqCtr := 1, actCtr := 2, txnCtr := 1 }
          store := { u.store with format := some { f with step := .opening k } } }
        (.formatOpen k 1 1) (.program k 1 (openStampLine 1 1))) stored := by
  have htaken : u.formatTake f [] = (countersSet u).formatOpenNext f := if_neg (not_lt.mpr hblank)
  rw [htaken, formatOpenNext_of_candidate (u := countersSet u) hk hu.free hu.bar] at h
  exact endsIn_of_conclude h hu.ne_mounted (bytesKept_congr hu.bytes rfl)

/-- After the last sector, with fewer, the format ends (R136). -/
theorem Formatting.fails (hu : Formatting s u stored) {before after : List (Byte × Byte)} {tag : Byte}
    (h : exec c s = conclude (u.formatTake f [], [])) (hblank : countIn u.sectors .blank < 3)
    (hfly : u.cu.flies before 0x51#8 tag after) : endsIn c s (formatFewer u f (before ++ after) tag) stored := by
  have htaken : u.formatTake f [] = u.formatFails f := if_pos hblank
  rw [htaken, formatFails_of_flies hfly] at h
  refine endsIn_of_conclude h nofun (bytesKept_congr hu.bytes ?_)
  unfold formatFewer
  rfl

/-- FORMAT turns to its next sectors, slot M being empty (R135, R136). -/
theorem Formatting.takes (hu : Formatting s u stored) {todo : List SectorIx}
    (h : exec c s = conclude (u.formatTake f todo, [])) : formatTakes c s u f todo stored := by
  intro worn rest htodo hworn u1 f1
  rw [htodo, formatTake_worn hworn] at h
  have hnext := hu.wornOut worn
  refine ⟨fun k more hrest hk => ?_, fun k hrest hblank hk => ?_, fun before tag after hrest hblank hfly => ?_⟩
  · have hbelow : ((Machine.wornOut u worn).sector k).eraseCount < 100000 := by
      rw [wornOut_eraseCount]
      exact hk
    rw [hrest] at h
    exact hnext.erases h hbelow
  · rw [hrest] at h
    exact hnext.opens h hblank hk
  · rw [hrest] at h
    exact hnext.fails h hblank hfly

end Takes

end Requests

end Sys2Proof.Machine
end

section
/-! SUPPORT. The ends of FORMAT's READs, erases, stamps, opening and RETIRE records (R135, R136). -/

namespace Sys2Proof.Machine

set_option Elab.async false

section Ends
variable {s : State} {f : FormatFlight} {purpose : MPurpose} {i k : SectorIx} {todo : List SectorIx} {data : List Byte}

/-- Once FORMAT's request has ended, slot M is empty and nothing bars the next one (R105, R112). -/
theorem formatting_of_over {u : State} {stored : Nat → Prop} (h : formats s f purpose) (hst : u.store.st = s.store.st)
    (hpins : u.pins = s.pins) (hm : u.arr.m = none) (hb : bytesKept s u stored) : Formatting s u stored := by
  obtain ⟨hformatting, hlow, -, -⟩ := h
  exact ⟨hst.trans hformatting, by rw [hpins]; exact hlow, hm, hb⟩

/-! ### READs -/

theorem exec_formatStampReadEnd {r : ReadOutcome} {n : Nat} (h : performs s .m (.readLines i 0 1))
    (hf : formats s f (.formatRead i)) (hn : (s.readSpan (lineNo i 0) 1).2.freeCount = n) :
    exec (.formatStampReadEnd r) s = conclude
      ((storeOver (readOver s n .m)).formatReadEnded f i (returned r (s.readSpan (lineNo i 0) 1).1), []) := by
  obtain ⟨-, -, hformat, hreq⟩ := hf
  change execFormatStampReadEnd r s = _
  unfold execFormatStampReadEnd
  rw [inHandM_of h hreq, hformat]
  dsimp only
  rw [releaseM_readSpan hn]

/-- The sector that line 0 has been read of, with its erase count (R40). -/
def recounted (s : State) (n : Nat) (i : SectorIx) (x : SectorEntry) : State :=
  { storeOver (readOver s n .m) with sectors := s.sectors.set i.val x i.isLt }

theorem recounted_eq {n : Nat} {x : SectorEntry} {bs : List Byte} (hx : (s.sector i).recount bs = x) :
    (storeOver (readOver s n .m)).modSector i (SectorEntry.recount bs) = recounted s n i x := by
  subst hx
  rfl

theorem recount_st (bs : List Byte) (e : SectorEntry) : (e.recount bs).st = e.st := by
  unfold SectorEntry.recount
  cases validEraseStamp bs <;> rfl

/-- The counts do not change the order in which the sectors are taken (R135). -/
theorem formatOrder_recounted {n : Nat} {x : SectorEntry} (hx : x.st = (s.sector i).st) :
    (recounted s n i x).formatOrder = allSectors.filter (fun j => decide ((s.sector j).st = .blank)) ++
      allSectors.filter (fun j => decide ((s.sector j).st ≠ .blank)) := by
  have hst (j : SectorIx) : ((recounted s n i x).sector j).st = (s.sector j).st := by
    refine (congrArg SectorEntry.st (vector_get_set s.sectors _ _ _)).trans ?_
    split
    · rename_i hj
      rw [hj, hx]
    · rfl
  unfold State.formatOrder State.sectorsIn
  simp only [hst]

theorem formatReadLine_joins {u : State} (hm : u.arr.m = none) (j : SectorIx) : u.formatReadLine f j =
    storeAsks { u with store := { u.store with format := some { f with step := .reading j } } } (.formatRead j)
      (.readLines j 0 1) :=
  placeM_joins (u := u.setFormat { f with step := .reading j }) _ hm (.inl rfl)

theorem formatReadEnded_next {u : State} {bs : List Byte} {j : SectorIx} (hj : j.val = i.val + 1) :
    u.formatReadEnded f i bs = (u.modSector i (SectorEntry.recount bs)).formatReadLine f j := by
  have hlt : i.val + 1 < 32 := hj ▸ j.isLt
  have heq : (⟨i.val + 1, hlt⟩ : SectorIx) = j := Fin.ext hj.symm
  unfold State.formatReadEnded
  dsimp only
  rw [dif_pos hlt, heq]

theorem formatReadEnded_last {u : State} {bs : List Byte} (hi : i.val = 31) :
    u.formatReadEnded f i bs = (u.modSector i (SectorEntry.recount bs)).formatTake f
      (u.modSector i (SectorEntry.recount bs)).formatOrder := by
  unfold State.formatReadEnded
  dsimp only
  exact dif_neg (by omega)

/-! ### Erases -/

/-- The array once an erase of slot M has ended (R103, R105). -/
def formatEraseOver (s : State) (i : SectorIx) (v : Verify) : State :=
  storeOver { s with
    flash := match v with | .passed => s.flash.endErase i | .failed => s.flash.failErase i
    arr := { s.arr.ended .m with erase := none } }

theorem exec_formatEraseEnd {run : EraseRun} (h : performs s .m (.erase i)) (hf : formats s f (.formatErase i))
    (hstep : f.step = .erasing i todo) (hrun : s.arr.erase = some run) (hslot : run.slot = .m) (hcond : run.cond = .running)
    (v : Verify) :
    exec (.formatEraseEnd v) s = conclude ((formatEraseOver s i v).formatErased f i todo v, []) := by
  obtain ⟨-, -, hformat, hreq⟩ := hf
  have hrunning : s.eraseRunning .m = true := by
    unfold State.eraseRunning
    rw [hrun]
    dsimp only
    rw [hslot, hcond]
    rfl
  have htodo : f.todo = todo := by
    unfold FormatFlight.todo
    rw [hstep]
  change execFormatEraseEnd v s = _
  unfold execFormatEraseEnd
  rw [inHandM_of h hreq, hformat]
  dsimp only
  rw [hrunning, if_pos rfl, htodo]
  cases v <;> rfl

/-- The erase stamp of an erased sector is placed (R135). -/
theorem formatErased_passed {u : State} (hm : u.arr.m = none) (hbar : ¬ barHolds u) : u.formatErased f i todo .passed =
    storeAsks
      { u with
        sectors := (u.modSector i SectorEntry.raiseCount).sectors
        store := { u.store with format := some { f with step := .stamping i todo } } }
      (.formatStamp i) (.program i 0 (eraseStampLine f.generation ((u.sector i).eraseCount + 1))) := by
  have hcount : ((u.modSector i SectorEntry.raiseCount).sector i).eraseCount = (u.sector i).eraseCount + 1 := by
    rw [modSector_sector, if_pos rfl]
    rfl
  unfold State.formatErased
  dsimp only
  rw [hcount]
  exact placeM_joins (u := (u.modSector i SectorEntry.raiseCount).setFormat { f with step := .stamping i todo }) _ hm
    (.inr hbar)

/-! ### Stamps -/

theorem exec_formatStampProgramEnd (h : performs s .m (.program i 0 data)) (hf : formats s f (.formatStamp i))
    (hstep : f.step = .stamping i todo) (v : Verify) : exec (.formatStampProgramEnd v) s = conclude
      (((storeOver (programOver s .m i 0 data v)).formatStamped f.generation i v).formatTake f todo, []) := by
  obtain ⟨-, -, hformat, hreq⟩ := hf
  have htodo : f.todo = todo := by
    unfold FormatFlight.todo
    rw [hstep]
  change execFormatStampProgramEnd v s = _
  unfold execFormatStampProgramEnd
  rw [inHandM_of h hreq, hformat]
  dsimp only
  rw [releaseM_programmed, htodo]

/-- What the end of a stamp program makes of its sector (R135). -/
def formatStampOver (s : State) (f : FormatFlight) (i : SectorIx) (data : List Byte) (v : Verify) : State :=
  { storeOver (programOver s .m i 0 data v) with
    sectors := s.sectors.set i.val (if v = .passed then
        { s.sector i with st := .blank, live := 0, dead := 0, generation := f.generation }
      else pendingEntry (s.sector i)) i.isLt
    win := if v = .passed then s.win else s.win.raised .programFault }

theorem formatStamped_eq (v : Verify) :
    (storeOver (programOver s .m i 0 data v)).formatStamped f.generation i v = formatStampOver s f i data v := by
  cases v <;> rfl

/-! ### The opening -/

theorem exec_formatOpenStampEnd {a q : Nat} (h : performs s .m (.program k 1 data)) (hf : formats s f (.formatOpen k a q))
    (v : Verify) : exec (.formatOpenStampEnd v) s = conclude
      ((storeOver (programOver s .m k 1 data v)).formatOpened f k a q v, []) := by
  obtain ⟨-, -, hformat, hreq⟩ := hf
  change execFormatOpenStampEnd v s = _
  unfold execFormatOpenStampEnd
  rw [inHandM_of h hreq, hformat]
  dsimp only
  rw [releaseM_programmed]

/-! ### RETIRE records -/

theorem exec_formatRetireProgramEnd {line : Nat} (h : performs s .m (.program k line data))
    (hf : formats s f (.formatRetire i)) (hstep : f.step = .retiring i todo) (v : Verify) :
    exec (.formatRetireProgramEnd v) s = conclude
      ((storeOver (programOver s .m k line data v)).formatRetireEnded f i todo { sector := k, line := line } v, []) := by
  obtain ⟨-, -, hformat, hreq⟩ := hf
  have htodo : f.todo = todo := by
    unfold FormatFlight.todo
    rw [hstep]
  change execFormatRetireProgramEnd v s = _
  unfold execFormatRetireProgramEnd
  rw [inHandM_of h hreq, hformat]
  dsimp only
  rw [releaseM_programmed, htodo]

/-- A sector retired by FORMAT, at the place of a record that has passed or without one (R136). -/
def formatRetireOver (s : State) (i k : SectorIx) (line : Nat) (data : List Byte) (v : Verify) : State :=
  let named := fun loc : Option Loc => { s.sector i with st := .retired, live := 0, dead := 0, retireLoc := loc }
  let holder := { s.sector k with live := (s.sector k).live + 1, dead := (s.sector k).dead - 1 }
  { storeOver (programOver s .m k line data v) with
    win := if v = .passed then s.win.raised .sectorRetired else (s.win.raised .programFault).raised .sectorRetired
    sectors := if v = .passed then
        (s.sectors.set i.val (named (some { sector := k, line := line })) i.isLt).set k.val holder k.isLt
      else s.sectors.set i.val (named none) i.isLt }

theorem formatRetireEnded_eq {line : Nat} (hne : i ≠ k) (hdead : 1 ≤ (s.sector k).dead) (v : Verify) :
    (storeOver (programOver s .m k line data v)).formatRetireEnded f i todo { sector := k, line := line } v =
      (formatRetireOver s i k line data v).formatRetireNext f todo := by
  cases v with
  | passed =>
    have hholder : ((storeOver (programOver s .m k line data .passed)).formatRetired i
        (some { sector := k, line := line })).sector k = s.sector k :=
      (vector_get_set _ _ _ _).trans (if_neg hne.symm)
    have htaken : (s.sector k).takeLines 1 =
        { s.sector k with live := (s.sector k).live + 1, dead := (s.sector k).dead - 1 } := by
      unfold SectorEntry.takeLines
      rw [min_eq_left hdead]
    have hmod : ((storeOver (programOver s .m k line data .passed)).formatRetired i
        (some { sector := k, line := line })).modSector k (SectorEntry.takeLines 1) =
          formatRetireOver s i k line data .passed := by
      unfold State.modSector
      rw [show Vector.get _ k = s.sector k from hholder, htaken]
      rfl
    unfold State.formatRetireEnded
    dsimp only
    rw [hmod]
  | failed => rfl

end Ends

/-- Settles O59, by the kind of the operation that ends. -/
theorem formatReadsErasesStamps : Obligations.FormatReadsErasesStamps := by
  refine ⟨?_, ?_, ?_⟩
  · intro s r i f bs n x hperf hf hbs hn hx gone
    have hrecount : (s.sector i).recount bs = x := by
      rw [hx]
      unfold SectorEntry.recount
      cases validEraseStamp bs <;> rfl
    have hu : Formatting s (recounted s n i x) nowhere := formatting_of_over hf rfl rfl rfl (bytesKept_of_flash rfl _)
    have hexec := exec_formatStampReadEnd (r := r) hperf hf hn
    rw [hbs] at hexec
    refine ⟨fun j hj => ?_, fun hi => ?_⟩
    · rw [formatReadEnded_next hj, recounted_eq hrecount, formatReadLine_joins hu.free] at hexec
      exact endsIn_of_conclude hexec hu.ne_mounted (bytesKept_congr hu.bytes rfl)
    · rw [formatReadEnded_last hi, recounted_eq hrecount,
        formatOrder_recounted (hrecount ▸ recount_st bs _)] at hexec
      exact hu.takes hexec
  · intro s i f todo run hperf hf hstep hrun hslot hcond gone
    have hexec := exec_formatEraseEnd hperf hf hstep hrun hslot hcond
    refine ⟨?_, ?_⟩
    · intro x u
      have hu : Formatting s (formatEraseOver s i .passed) fun ln => inSector i ln = true :=
        formatting_of_over hf rfl rfl rfl fun ln j hj hout =>
          (Flash.endErase_byte _ _ _ hj).trans (if_neg hout)
      have hpassed := hexec .passed
      rw [formatErased_passed hu.free hu.bar] at hpassed
      exact endsIn_of_conclude hpassed hu.ne_mounted (bytesKept_congr hu.bytes rfl)
    · intro u listed
      have hu : Formatting s u nowhere := formatting_of_over hf rfl rfl rfl fun ln j _ _ => rfl
      exact hu.takes (hexec .failed)
  · intro s i f todo data v hperf hf hstep x u
    have hu : Formatting s (formatStampOver s f i data v) fun ln => v = .passed ∧ ln = lineNo i 0 :=
      formatting_of_over hf rfl rfl rfl (bytesKept_programOver (x := .m) (data := data) rfl)
    have hexec := exec_formatStampProgramEnd hperf hf hstep v
    rw [formatStamped_eq] at hexec
    exact hu.takes hexec

/-- Settles O60, by the kind of the program and its verify. -/
theorem formatOpensAndRetires : Obligations.FormatOpensAndRetires := by
  refine ⟨?_, ?_⟩
  · intro s f k a q data hperf hf gone
    have hexec := exec_formatOpenStampEnd hperf hf
    refine ⟨?_, fun j hj => ?_, fun before tag after hnone hfly => ?_⟩
    · intro lw u stored
      have hu : Formatting s u stored := formatting_of_over hf rfl rfl rfl (bytesKept_endProgram rfl)
      have hpassed : exec (.formatOpenStampEnd .passed) s = conclude (u.formatRetireNext f f.toRetire, []) :=
        hexec .passed
      refine ⟨fun before tag after hnil hfly => ?_, fun i todo hcons => ?_⟩
      · rw [hnil, formatRetireNext_nil, formatDone_of_flies (u := u) hfly] at hpassed
        exact concludesIn_of_conclude hpassed (bytesKept_congr hu.bytes rfl)
      · rw [hcons, formatRetireNext_cons (u := u) (p := { sector := k, line := 2 }) rfl hu.free hu.bar] at hpassed
        exact endsIn_of_conclude hpassed hu.ne_mounted (bytesKept_congr hu.bytes rfl)
    · intro u
      have hlost : exec (.formatOpenStampEnd .failed) s = conclude ((mountSectorLost s k data).formatOpenNext f, []) :=
        hexec .failed
      have hu : Formatting s (mountSectorLost s k data) nowhere :=
        formatting_of_over hf rfl rfl rfl (bytesKept_failProgram _ rfl)
      rw [formatOpenNext_of_candidate (candidate_of_lost mountSectorLost_sector hj) hu.free hu.bar] at hlost
      exact endsIn_of_conclude hlost hu.ne_mounted (bytesKept_congr hu.bytes rfl)
    · intro u
      have hlost : exec (.formatOpenStampEnd .failed) s = conclude ((mountSectorLost s k data).formatOpenNext f, []) :=
        hexec .failed
      have hu : Formatting s (mountSectorLost s k data) nowhere :=
        formatting_of_over hf rfl rfl rfl (bytesKept_failProgram _ rfl)
      rw [formatOpenNext_of_none (candidate_none_of_lost mountSectorLost_sector hnone),
        formatFails_of_flies (u := mountSectorLost s k data) hfly] at hlost
      exact endsIn_of_conclude hlost nofun (bytesKept_congr hu.bytes rfl)
  · intro s f i k line data todo p hperf hf hstep hp hne hdead named holder passed failed stored
    have hexec (v : Verify) : exec (.formatRetireProgramEnd v) s =
        conclude ((formatRetireOver s i k line data v).formatRetireNext f todo, []) := by
      rw [exec_formatRetireProgramEnd hperf hf hstep, formatRetireEnded_eq hne hdead]
    have hpassed : Formatting s (formatRetireOver s i k line data .passed) stored :=
      formatting_of_over hf rfl rfl rfl (bytesKept_endProgram (data := data) rfl)
    have hfailed : Formatting s (formatRetireOver s i k line data .failed) nowhere :=
      formatting_of_over hf rfl rfl rfl (bytesKept_failProgram _ rfl)
    have hpasses := hexec .passed
    have hfails := hexec .failed
    refine ⟨fun j rest hcons => ?_, fun before tag after hnil hfly => ?_⟩
    · rw [hcons, formatRetireNext_cons (u := formatRetireOver s i k line data _) hp hpassed.free hpassed.bar] at hpasses
      rw [hcons, formatRetireNext_cons (u := formatRetireOver s i k line data _) hp hfailed.free hfailed.bar] at hfails
      exact ⟨endsIn_of_conclude hpasses hpassed.ne_mounted (bytesKept_congr hpassed.bytes rfl),
        endsIn_of_conclude hfails hfailed.ne_mounted (bytesKept_congr hfailed.bytes rfl)⟩
    · rw [hnil, formatRetireNext_nil, formatDone_of_flies (u := formatRetireOver s i k line data _) hfly] at hpasses hfails
      exact ⟨concludesIn_of_conclude hpasses (bytesKept_congr hpassed.bytes rfl),
        concludesIn_of_conclude hfails (bytesKept_congr hfailed.bytes rfl)⟩

end Sys2Proof.Machine
end

section
/-! SUPPORT. The READs of a mount: the stamps of a sector, the classes of all sectors and the order of the scan, and the
records of the opened ones (R40, R122–R124). -/

namespace Sys2Proof.Machine

set_option Elab.async false

/-! ### The order of the scan -/

/-- Two lists that rise by one relation and hold the same elements are one list. -/
theorem eq_of_rising {α : Type} {R : α → α → Prop} (hasymm : ∀ a b, R a b → ¬ R b a) {l l' : List α} (h : l.Pairwise R)
    (h' : l'.Pairwise R) (hmem : ∀ a, a ∈ l ↔ a ∈ l') : l = l' := by
  have hirrefl : Std.Irrefl R := ⟨fun a ha => hasymm a a ha ha⟩
  have hantisymm : Std.Antisymm R := ⟨fun a b hab hba => absurd hba (hasymm a b hab)⟩
  exact h.eq_of_mem_iff h' hmem

/-- The age of a sector as one number: activation order, ties by the index (R123). -/
def age (u : State) (i : SectorIx) : Nat :=
  32 * (u.sector i).activation + i.val

theorem earlier_iff_age {u : State} {i j : SectorIx} : earlier u i j ↔ age u i < age u j := by
  unfold age earlier
  have hi := i.isLt
  have hj := j.isLt
  rw [Fin.lt_def]
  omega

theorem age_injective {u : State} {i j : SectorIx} (h : age u i = age u j) : i = j := by
  unfold age at h
  exact Fin.ext (by omega)

theorem isOpened_eq (u : State) (i : SectorIx) :
    u.isOpened i = opens u.store.generation (u.store.scan.stampOf i) := by
  unfold State.isOpened classify opens
  obtain ⟨erase, opening⟩ := u.store.scan.stampOf i
  cases erase with
  | none => rfl
  | some x =>
    obtain ⟨g, n⟩ := x
    dsimp only
    by_cases hg : g < u.store.generation
    · rw [if_pos hg]
      cases opening <;> simp [hg]
    · rw [if_neg hg]
      cases opening <;> simp [not_lt.mp hg]

theorem isOpened_iff {u : State} {i : SectorIx} : u.isOpened i = true ↔ openedIn u i := by
  rw [isOpened_eq]

theorem mem_insertByAge {u : State} {i j : SectorIx} {l : List SectorIx} : j ∈ u.insertByAge i l ↔ j = i ∨ j ∈ l := by
  induction l with
  | nil => exact List.mem_cons
  | cons k rest ih =>
    rw [State.insertByAge]
    split
    · exact List.mem_cons
    · rw [List.mem_cons, ih, List.mem_cons, or_left_comm]

theorem insertByAge_rises {u : State} {i : SectorIx} {l : List SectorIx} (h : l.Pairwise (earlier u)) (hi : i ∉ l) :
    (u.insertByAge i l).Pairwise (earlier u) := by
  induction l with
  | nil => exact List.pairwise_singleton _ _
  | cons k rest ih =>
    obtain ⟨hk, hrest⟩ := List.pairwise_cons.mp h
    rw [List.mem_cons, not_or] at hi
    obtain ⟨hne, hi⟩ := hi
    rw [State.insertByAge]
    split
    · rename_i hold
      have hik := older_iff.mp hold
      refine List.pairwise_cons.mpr ⟨List.forall_mem_cons.mpr ⟨hik, fun j hj => ?_⟩, h⟩
      exact earlier_iff_age.mpr ((earlier_iff_age.mp hik).trans (earlier_iff_age.mp (hk j hj)))
    · rename_i hold
      have hki : earlier u k i := by
        rcases lt_trichotomy (age u k) (age u i) with hlt | heq | hgt
        · exact earlier_iff_age.mpr hlt
        · exact absurd (age_injective heq).symm hne
        · exact absurd (older_iff.mpr (earlier_iff_age.mpr hgt)) hold
      refine List.pairwise_cons.mpr ⟨fun j hj => ?_, ih hrest hi⟩
      rcases mem_insertByAge.mp hj with rfl | hj
      · exact hki
      · exact hk j hj

/-- The opened sectors, each once, in activation order (R124). -/
theorem openedByAge_rises (u : State) : u.openedByAge.Pairwise (earlier u) ∧ ∀ k, k ∈ u.openedByAge ↔ openedIn u k := by
  have inserted (l : List SectorIx) (hl : l.Nodup) :
      (l.foldr u.insertByAge []).Pairwise (earlier u) ∧ ∀ k, k ∈ l.foldr u.insertByAge [] ↔ k ∈ l := by
    induction l with
    | nil => exact ⟨List.Pairwise.nil, fun _ => Iff.rfl⟩
    | cons i rest ih =>
      obtain ⟨hi, hrest⟩ := List.nodup_cons.mp hl
      obtain ⟨hrises, hmem⟩ := ih hrest
      refine ⟨insertByAge_rises hrises fun h => hi ((hmem i).mp h), fun k => ?_⟩
      exact mem_insertByAge.trans ((or_congr_right (hmem k)).trans List.mem_cons.symm)
  obtain ⟨hrises, hmem⟩ := inserted (allSectors.filter u.isOpened) ((List.nodup_finRange 32).filter _)
  refine ⟨hrises, fun k => (hmem k).trans (List.mem_filter.trans ?_)⟩
  rw [isOpened_iff]
  exact and_iff_right (List.mem_finRange k)

theorem openedByAge_eq {u : State} {l : List SectorIx} (h : l.Pairwise (earlier u)) (hmem : ∀ k, k ∈ l ↔ openedIn u k) :
    u.openedByAge = l := by
  obtain ⟨hrises, hmem'⟩ := openedByAge_rises u
  exact eq_of_rising (fun _ _ hab => not_earlier hab) hrises h fun k => (hmem' k).trans (hmem k).symm

/-! ### What the stamps say -/

/-- A number folded over the stamps is the highest of those they carry, 0 without one. -/
theorem foldl_highest {l : List StampRead} {pick : Nat × Nat → Nat} {m : Nat} {step : Nat → StampRead → Nat}
    (hskip : ∀ a x, x.erase = none → step a x = a) (htake : ∀ a x y, x.erase = some y → step a x = max a (pick y))
    {start : Nat} (hstart : start ≤ m) (hle : ∀ x ∈ l, ∀ y, x.erase = some y → pick y ≤ m)
    (hsome : start = m ∨ ∃ x ∈ l, ∃ y, x.erase = some y ∧ pick y = m) : l.foldl step start = m := by
  induction l generalizing start with
  | nil => exact hsome.resolve_right fun ⟨_, hx, _⟩ => nomatch hx
  | cons x rest ih =>
    obtain ⟨hx, hrest⟩ := List.forall_mem_cons.mp hle
    rw [List.foldl_cons]
    rcases herase : x.erase with _ | y
    · rw [hskip start x herase]
      refine ih hstart hrest (hsome.imp_right fun ⟨z, hz, y, hy, hm⟩ => ?_)
      rcases List.mem_cons.mp hz with rfl | hz
      · exact nomatch herase.symm.trans hy
      · exact ⟨z, hz, y, hy, hm⟩
    · have hym := hx y herase
      rw [htake start x y herase]
      refine ih (max_le hstart hym) hrest ?_
      rcases hsome with rfl | ⟨z, hz, y', hy, hm⟩
      · exact .inl (max_eq_left hym)
      · rcases List.mem_cons.mp hz with rfl | hz
        · rw [Option.some.inj (herase.symm.trans hy), hm]
          exact .inl (max_eq_right hstart)
        · exact .inr ⟨z, hz, y', hy, hm⟩

theorem exists_pick {l : List StampRead} {pick : Nat × Nat → Nat} {m : Nat}
    (h : ∃ x ∈ l, x.erase.map pick = some m) : ∃ x ∈ l, ∃ y, x.erase = some y ∧ pick y = m := by
  obtain ⟨x, hx, hm⟩ := h
  exact ⟨x, hx, Option.map_eq_some_iff.mp hm⟩

theorem foldl_generation {l : List StampRead} {g : Nat} (hle : ∀ x ∈ l, ∀ y, x.erase = some y → y.1 ≤ g)
    (hsome : 0 = g ∨ ∃ x ∈ l, ∃ y, x.erase = some y ∧ y.1 = g) : highestGeneration l = g := by
  refine foldl_highest (pick := Prod.fst) (fun a x hx => ?_) (fun a x y hx => ?_) (Nat.zero_le g) hle hsome <;>
    rw [hx]

theorem highestGeneration_eq {l : List StampRead} {g : Nat} (hsome : ∃ x ∈ l, x.erase.map Prod.fst = some g)
    (hle : ∀ x ∈ l, ∀ y, x.erase = some y → y.1 ≤ g) : highestGeneration l = g :=
  foldl_generation hle (.inr (exists_pick hsome))

/-- Without a valid erase stamp the generation is 0 (R122). -/
theorem highestGeneration_eq_zero {l : List StampRead} (h : ∀ x ∈ l, x.erase = none) : highestGeneration l = 0 :=
  foldl_generation (fun x hx _ hy => nomatch (h x hx).symm.trans hy) (.inl rfl)

theorem highestEraseCount_eq {l : List StampRead} {n : Nat} (hsome : ∃ x ∈ l, x.erase.map Prod.snd = some n)
    (hle : ∀ x ∈ l, ∀ y, x.erase = some y → y.2 ≤ n) : highestEraseCount l = n := by
  refine foldl_highest (pick := Prod.snd) (fun a x hx => ?_) (fun a x y hx => ?_) (Nat.zero_le n) hle
    (.inr (exists_pick hsome)) <;> rw [hx]

theorem stampEntry_eq (generation estimate : Nat) (x : StampRead) :
    stampEntry generation estimate x = stampedEntry generation estimate x := by
  unfold stampEntry stampedEntry classify
  obtain ⟨erase, opening⟩ := x
  cases erase with
  | none => rfl
  | some y =>
    obtain ⟨g, n⟩ := y
    dsimp only
    by_cases hg : g < generation
    · rw [if_pos hg, if_pos hg]
    · rw [if_neg hg, if_neg hg]
      cases opening <;> rfl

/-- A sector is classed ERASE-PENDING just when its entry is, and it is not opened (R123). -/
theorem classify_pending_iff {generation : Nat} (estimate : Nat) {x : StampRead} :
    classify generation x = .erasePending ↔
      (stampedEntry generation estimate x).st = .erasePending ∧ opens generation x = false := by
  unfold classify stampedEntry opens
  obtain ⟨erase, opening⟩ := x
  cases erase with
  | none => exact ⟨fun _ => ⟨rfl, rfl⟩, fun _ => rfl⟩
  | some y =>
    obtain ⟨g, n⟩ := y
    dsimp only
    by_cases hg : g < generation
    · rw [if_pos hg, if_pos hg]
      refine iff_of_true rfl ⟨rfl, ?_⟩
      cases opening <;> simp [hg]
    · rw [if_neg hg, if_neg hg]
      cases opening <;> simp [SectorEntry.reset, not_lt.mp hg]

section Stamps
variable {u : State} {l : List StampRead}

/-- The stamps of the 32 sectors, each in its place. -/
theorem stampOf_eq {c : MountScan} (hlen : c.stamps.length = 32) (i : SectorIx) :
    c.stamps[i.val]? = some (c.stampOf i) := by
  have hlt : i.val < c.stamps.length := by
    rw [hlen]
    exact i.isLt
  unfold MountScan.stampOf
  rw [List.getElem?_eq_getElem hlt, List.getD_eq_getElem _ _ hlt]

/-- Asking every sector is asking every stamp. -/
theorem any_stampOf {c : MountScan} (hlen : c.stamps.length = 32) {p : StampRead → Bool} :
    (allSectors.any fun i => p (c.stampOf i)) = true ↔ ∃ x ∈ c.stamps, p x = true := by
  rw [List.any_eq_true]
  refine ⟨fun ⟨i, _, hi⟩ => ⟨_, List.mem_of_getElem? (stampOf_eq hlen i), hi⟩, fun ⟨x, hx, hp⟩ => ?_⟩
  obtain ⟨n, hn, rfl⟩ := List.mem_iff_getElem.mp hx
  have hn' : n < 32 := hlen ▸ hn
  have hstamp := (stampOf_eq hlen ⟨n, hn'⟩).symm.trans (List.getElem?_eq_getElem hn)
  exact ⟨⟨n, hn'⟩, List.mem_finRange _, by rw [Option.some.inj hstamp]; exact hp⟩

/-- What the 32 sectors' stamps come to: the generation, the estimate, the entries, and what they raise and repair
(R40, R122, R123). -/
structure StampsRead (l : List StampRead) (g n : Nat) (sectors : Vector SectorEntry 32) (repair lost : Bool) :
    Prop where
  length : l.length = 32
  formatted : 1 ≤ g
  generation : ∃ x ∈ l, x.erase.map Prod.fst = some g
  estimate : ∃ x ∈ l, x.erase.map Prod.snd = some n
  highest : ∀ x ∈ l, ∀ y, x.erase = some y → y.1 ≤ g ∧ y.2 ≤ n
  entries : ∀ k : SectorIx, ∀ x, l[k.val]? = some x → sectors.get k = stampedEntry g n x
  lost_iff : lost = true ↔ ∃ x ∈ l, x.erase = none
  repair_iff : repair = true ↔ ∃ x ∈ l, (stampedEntry g n x).st = .erasePending ∧ opens g x = false

/-- The state as STAMPS leaves it, with the order of the scan (R123, R124). -/
def stampsJudged (u : State) (generation : Nat) (sectors : Vector SectorEntry 32) (order : List SectorIx)
    (repair lost : Bool) : State :=
  { u with
    sectors := sectors
    win := if lost then u.win.raised .mountRepaired else u.win
    store := { u.store with
      generation := generation, phase := .records
      scan := { u.store.scan with toScan := order, cursor := 2, attempts := 0, repair := repair } } }

/-- The state in which the sectors have their entries (R123). -/
def stampsClassed (u : State) (generation : Nat) (sectors : Vector SectorEntry 32) (lost : Bool) : State :=
  { u with
    sectors := sectors
    win := if lost then u.win.raised .mountRepaired else u.win
    store := { u.store with generation := generation, phase := .records } }

theorem stampsClassed_eq (generation : Nat) (sectors : Vector SectorEntry 32) (lost : Bool) :
    State.raiseIf { u with sectors := sectors, store := { u.store with generation := generation, phase := .records } }
      lost .mountRepaired = stampsClassed u generation sectors lost := by
  cases lost <;> rfl

theorem stampsDone_of_read {generation estimate : Nat} {sectors : Vector SectorEntry 32} {order : List SectorIx}
    {repair lost : Bool} (h : StampsRead u.store.scan.stamps generation estimate sectors repair lost)
    (hrises : order.Pairwise (earlier (stampsJudged u generation sectors order repair lost)))
    (hmem : ∀ k, k ∈ order ↔ openedIn (stampsJudged u generation sectors order repair lost) k) :
    u.stampsDone = (stampsJudged u generation sectors order repair lost).scanNext := by
  have hgen : highestGeneration u.store.scan.stamps = generation :=
    highestGeneration_eq h.generation fun x hx y hy => (h.highest x hx y hy).1
  have hest : highestEraseCount u.store.scan.stamps = estimate :=
    highestEraseCount_eq h.estimate fun x hx y hy => (h.highest x hx y hy).2
  have hsectors : (Vector.ofFn fun i => stampEntry generation estimate (u.store.scan.stampOf i)) = sectors := by
    refine (Vector.ext fun i hi => ?_)
    rw [Vector.getElem_ofFn, stampEntry_eq]
    exact (h.entries ⟨i, hi⟩ _ (stampOf_eq h.length ⟨i, hi⟩)).symm
  have hlost : (allSectors.any fun i => (u.store.scan.stampOf i).erase.isNone) = lost := by
    rw [Bool.eq_iff_iff, any_stampOf (p := fun x => x.erase.isNone) h.length, h.lost_iff]
    simp only [Option.isNone_iff_eq_none]
  have hrepair : (allSectors.any fun i => decide (classify generation (u.store.scan.stampOf i) = .erasePending)) =
      repair := by
    rw [Bool.eq_iff_iff, any_stampOf (p := fun x => decide (classify generation x = .erasePending)) h.length, h.repair_iff]
    simp only [decide_eq_true_iff, classify_pending_iff estimate]
  have horder : (stampsClassed u generation sectors lost).openedByAge = order := openedByAge_eq hrises hmem
  have hformatted := h.formatted
  unfold State.stampsDone
  dsimp only
  rw [hgen, if_neg (by omega), hest, hsectors, hlost, hrepair, stampsClassed_eq, horder]
  rfl

/-- Without a valid erase stamp the mount ends UNFORMATTED (R122; log 37). -/
theorem stampsDone_of_none (h : ∀ x ∈ u.store.scan.stamps, x.erase = none) : u.stampsDone = u.unformatted := by
  unfold State.stampsDone
  dsimp only
  rw [highestGeneration_eq_zero h]
  exact if_pos rfl

end Stamps

/-! ### The READs of STAMPS -/

section Reads
variable {s : State} {r : ReadOutcome} {i : SectorIx} {bs : List Byte} {n : Nat}

/-- The stamps of a sector joined to those read (R122). -/
def stampsJoined (s : State) (n : Nat) (bs : List Byte) : State :=
  (storeOver (readOver s n .m)).setScan { s.store.scan with
    stamps := s.store.scan.stamps ++ [{ erase := validEraseStamp (bs.take 16), opening := judgeOpenStamp (bs.drop 16) }] }

theorem exec_mountStampReadEnd (h : performs s .m (.readLines i 0 2))
    (hreq : s.store.req = some { purpose := .mountStamp i, abandoned := false })
    (hbs : returned r (s.readSpan (lineNo i 0) 2).1 = bs) (hn : (s.readSpan (lineNo i 0) 2).2.freeCount = n) :
    exec (.mountStampReadEnd r) s = conclude ((storeOver (readOver s n .m)).stampRead i bs, []) := by
  change execMountStampReadEnd r s = _
  unfold execMountStampReadEnd
  rw [inHandM_of h hreq]
  dsimp only
  rw [releaseM_readSpan hn, hbs]
  rfl

theorem stampRead_next {j : SectorIx} (hj : j.val = i.val + 1) :
    (storeOver (readOver s n .m)).stampRead i bs =
      storeAsks (stampsJoined s n bs) (.mountStamp j) (.readLines j 0 2) := by
  have hlt : i.val + 1 < 32 := hj ▸ j.isLt
  have heq : (⟨i.val + 1, hlt⟩ : SectorIx) = j := Fin.ext hj.symm
  unfold State.stampRead
  dsimp only
  rw [dif_pos hlt, heq]
  exact placeM_joins (u := stampsJoined s n bs) _ rfl (.inl rfl)

theorem stampRead_last (hi : i.val = 31) :
    (storeOver (readOver s n .m)).stampRead i bs = (stampsJoined s n bs).stampsDone := by
  unfold State.stampRead
  dsimp only
  exact dif_neg (by omega)

/-- The state as a mount over an unformatted array leaves it (R122; log 37). -/
def unformattedNow (u : State) : State :=
  { u with
    dir := []
    sectors := Vector.replicate 32 SectorEntry.reset
    settings := Settings.factory
    guards := clearUnfixed u.guards
    store := { u.store with generation := 0 } }

theorem unformatted_eq (u : State) :
    u.unformatted = (unformattedNow u).mountEnds .unmounted .unformatted .unformatted 0 0 := rfl

end Reads

/-! ### The READs of RECORDS -/

section Records
variable {s : State} {r : ReadOutcome} {i : SectorIx} {p n : Nat} {len : ReadLen} {rr : ReadResult}

theorem exec_mountRecordReadEnd (h : performs s .m (.readRecord i p len))
    (hreq : s.store.req = some { purpose := .mountRecord, abandoned := false })
    (hrr : (s.readRecord i p len r).1 = rr) (hn : (s.readRecord i p len r).2.freeCount = n) :
    exec (.mountRecordReadEnd r) s = conclude ((storeOver (readOver s n .m)).recordRead i rr, []) := by
  change execMountRecordReadEnd r s = _
  unfold execMountRecordReadEnd
  rw [inHandM_of h hreq]
  dsimp only
  rw [releaseM_readRecord hn, hrr]
  rfl

theorem appendOf_setAppend {c : MountScan} {l : List (SectorIx × Nat)} (i : SectorIx) (m : Nat)
    (h : c.appendAt = setAppend l i m) :
    c.appendOf i = m ∧ ∀ d : MountScan, d.appendAt = l → ∀ j, j ≠ i → c.appendOf j = d.appendOf j := by
  unfold MountScan.appendOf
  rw [h]
  unfold setAppend
  refine ⟨?_, fun d hd j hj => ?_⟩
  · have hfind : ((i, m) :: l.filter fun x => decide (x.1 ≠ i)).find? (fun x => decide (x.1 = i)) = some (i, m) :=
      List.find?_cons_of_pos (decide_eq_true rfl)
    rw [hfind]
  · have hfind : (l.filter fun x => decide (x.1 ≠ i)).find? (fun x => decide (x.1 = j)) =
        l.find? fun x => decide (x.1 = j) := by
      rw [List.find?_filter]
      refine congrArg (fun q => l.find? q) (funext fun x => ?_)
      by_cases hx : x.1 = j
      · simp [hx, hj]
      · simp [hx]
    have hskip : ((i, m) :: l.filter fun x => decide (x.1 ≠ i)).find? (fun x => decide (x.1 = j)) =
        (l.filter fun x => decide (x.1 ≠ i)).find? fun x => decide (x.1 = j) :=
      List.find?_cons_of_neg (by simpa using hj.symm)
    rw [hskip, hfind, hd]

/-- Of the payloads kept, a sector's is the newest (R124). -/
theorem mem_keepSettings {l : List ScanSettings} {x : ScanSettings}
    (h : ∀ y ∈ l, y.loc.sector = x.loc.sector → y.seq ≤ x.seq) (y : ScanSettings) :
    y ∈ keepSettings l x ↔ y = x ∨ (y ∈ l ∧ y.loc.sector ≠ x.loc.sector) := by
  unfold keepSettings
  split
  · rename_i hnone
    rw [List.find?_eq_none] at hnone
    rw [List.mem_cons]
    refine or_congr_right ⟨fun hy => ⟨hy, fun he => hnone y hy (decide_eq_true he)⟩, And.left⟩
  · rename_i z hz
    have hsector := List.find?_some hz
    have hle : z.seq ≤ x.seq := h z (List.mem_of_find?_eq_some hz) (of_decide_eq_true hsector)
    rw [if_neg (not_lt.mpr hle), List.mem_cons, List.mem_filter, decide_eq_true_iff]

/-- Only a VALUE has the settings key (R6, R9). -/
theorem value_of_settingsKey {rec : Record} (h : validRecordAt p rr = some rec) (hkey : rec.key = 0xFF01#16) :
    rec.kind = .value := by
  have hfit := validRecordAt_fieldsFit h
  unfold Record.fieldsFit at hfit
  cases hk : rec.kind <;> rw [hk] at hfit <;> simp only [Bool.and_eq_true, decide_eq_true_eq] at hfit
  case tombstone =>
    have huser := hfit.1.1
    rw [hkey] at huser
    exact nomatch huser
  all_goals
    have hzero := hfit.1.1
    rw [hkey] at hzero
    exact nomatch hzero

/-- The scan after a line has been judged for good (R124). -/
def MountScan.judgedNext (c : MountScan) (i : SectorIx) (rr : ReadResult) : MountScan :=
  if isBlankLine rr.bytes then { c with cursor := c.cursor + 1, attempts := 0 }
  else
    match validRecordAt c.cursor rr with
    | some rec => c.accept rec { sector := i, line := c.cursor }
    | none => { c with
        cursor := c.cursor + 1, attempts := 0, repair := true, appendAt := setAppend c.appendAt i (c.cursor + 1) }

theorem judged_judgedNext {c : MountScan} (hp : c.cursor = p)
    (h : isBlankLine rr.bytes = true ∨ validRecordAt p rr ≠ none ∨ c.attempts ≠ 0) :
    judged c (c.judgedNext i rr) i p rr := by
  subst hp
  unfold judged MountScan.judgedNext
  by_cases hblank : isBlankLine rr.bytes = true
  · rw [if_pos hblank]
    exact .inl ⟨hblank, rfl⟩
  · have hnot : isBlankLine rr.bytes = false := Bool.eq_false_iff.mpr hblank
    rw [if_neg hblank]
    right
    cases hrec : validRecordAt c.cursor rr with
    | none =>
      have hattempts : c.attempts ≠ 0 := (h.resolve_left hblank).resolve_left fun hne => hne hrec
      obtain ⟨hown, hother⟩ := appendOf_setAppend
        (c := { c with cursor := c.cursor + 1, attempts := 0, repair := true
                       appendAt := setAppend c.appendAt i (c.cursor + 1) }) i (c.cursor + 1) rfl
      exact .inr ⟨hnot, rfl, hattempts, rfl, hown, hother c rfl⟩
    | some rec =>
      obtain ⟨hown, hother⟩ := appendOf_setAppend
        (c := c.accept rec { sector := i, line := c.cursor }) i (c.cursor + rec.lines) rfl
      refine .inl ⟨hnot, rec, rec.scanned { sector := i, line := c.cursor }, rfl, rfl, rfl, rfl, rfl, rfl, rfl, rfl,
        rfl, rfl, rfl, hown, hother c rfl, fun hkey => ?_, fun hkey hnewest x => ?_⟩
      · exact if_neg fun hboth => hkey hboth.2
      · have hsettings : (c.accept rec { sector := i, line := c.cursor }).settings =
            keepSettings c.settings { loc := { sector := i, line := c.cursor }, seq := rec.seq, payload := rec.payload } :=
          if_pos ⟨value_of_settingsKey hrec hkey, hkey⟩
        rw [hsettings]
        exact mem_keepSettings hnewest x

/-- The scan after a READ of RECORDS: the line is read again, or it is judged for good (R124). -/
theorem recordRead_judged {u : State}
    (h : isBlankLine rr.bytes = true ∨ validRecordAt u.store.scan.cursor rr ≠ none ∨ u.store.scan.attempts ≠ 0) :
    u.recordRead i rr = (u.setScan (u.store.scan.judgedNext i rr)).scanNext := by
  unfold State.recordRead MountScan.judgedNext
  dsimp only
  by_cases hblank : isBlankLine rr.bytes = true
  · rw [if_pos hblank, if_pos hblank]
  · rw [if_neg hblank, if_neg hblank]
    cases hrec : validRecordAt u.store.scan.cursor rr with
    | some rec => rfl
    | none =>
      have hattempts := (h.resolve_left hblank).resolve_left fun hne => hne hrec
      dsimp only
      rw [if_neg hattempts]

theorem recordRead_again {u : State} (hblank : isBlankLine rr.bytes = false)
    (hrec : validRecordAt u.store.scan.cursor rr = none) (hattempts : u.store.scan.attempts = 0) :
    u.recordRead i rr = (u.setScan { u.store.scan with attempts := 1 }).scanNext := by
  unfold State.recordRead
  dsimp only
  rw [hblank, if_neg Bool.false_ne_true, hrec]
  dsimp only
  rw [if_pos hattempts]

/-- The READ at the cursor follows (R124). -/
theorem scanNext_reads {u : State} {more : List SectorIx} (htodo : u.store.scan.toScan = i :: more)
    (hcursor : u.store.scan.cursor < 256) (hm : u.arr.m = none) : u.scanNext =
      storeAsks u .mountRecord (.readRecord i u.store.scan.cursor .header) := by
  unfold State.scanNext
  rw [htodo]
  dsimp only
  rw [if_pos hcursor]
  exact placeM_joins _ hm (.inl rfl)

/-- Past line 255 the next opened sector follows (R124). -/
theorem scanNext_next {u : State} {j : SectorIx} {rest : List SectorIx} (htodo : u.store.scan.toScan = i :: j :: rest)
    (hcursor : 256 ≤ u.store.scan.cursor) (hm : u.arr.m = none) : u.scanNext =
      storeAsks (u.setScan { u.store.scan with toScan := j :: rest, cursor := 2, attempts := 0 }) .mountRecord
        (.readRecord j 2 .header) := by
  unfold State.scanNext
  rw [htodo]
  dsimp only
  rw [if_neg (not_lt.mpr hcursor)]
  exact placeM_joins (u := u.setScan { u.store.scan with toScan := j :: rest, cursor := 2, attempts := 0 }) _ hm (.inl rfl)

/-- Past line 255 of the last one every record has been read (R124, R125). -/
theorem scanNext_last {u : State} (htodo : u.store.scan.toScan = [i]) (hcursor : 256 ≤ u.store.scan.cursor) :
    u.scanNext = (u.setScan { u.store.scan with toScan := [], cursor := 2, attempts := 0 }).recordsDone := by
  unfold State.scanNext
  rw [htodo]
  dsimp only
  rw [if_neg (not_lt.mpr hcursor)]

theorem judgedNext_toScan (c : MountScan) : (c.judgedNext i rr).toScan = c.toScan := by
  unfold MountScan.judgedNext
  split
  · rfl
  · split <;> rfl

end Records

/-- Settles O56, by the phase and by what the READ has returned. -/
theorem mountReadEnds : Obligations.MountReadEnds := by
  refine ⟨?_, ?_⟩
  · intro s r i bs n hperf hreq hst hbs hn gone read
    have hexec := exec_mountStampReadEnd hperf hreq hbs hn
    have hne : s.store.st ≠ .mounted := fun hm => nomatch hst.symm.trans hm
    refine ⟨fun j hj => ?_, ?_, fun hi hstamps hbad => ?_⟩
    · rw [stampRead_next hj] at hexec
      exact endsIn_of_conclude hexec hne (bytesKept_of_flash rfl _)
    · intro generation estimate sectors j more repair lost hi hlen hformatted hgen hest hhigh hsectors hlost hrepair u
        hrises hmem
      rw [stampRead_last hi, stampsDone_of_read (u := stampsJoined s n bs) (order := j :: more)
        ⟨hlen, hformatted, hgen, hest, hhigh, hsectors, hlost, hrepair⟩ hrises hmem,
        scanNext_reads (u := stampsJudged (stampsJoined s n bs) generation sectors (j :: more) repair lost)
          (i := j) (more := more) rfl (show 2 < 256 by decide) rfl] at hexec
      exact endsIn_of_conclude hexec hne (bytesKept_of_flash rfl _)
    · intro u
      have hnone : ∀ x ∈ (stampsJoined s n bs).store.scan.stamps, x.erase = none := fun x hx => by
        rcases List.mem_append.mp hx with hx | hx
        · exact hstamps x hx
        · rw [List.mem_singleton.mp hx]
          exact hbad
      rw [stampRead_last hi, stampsDone_of_none hnone, unformatted_eq] at hexec
      refine ⟨fun howner => ?_, fun before tag after howner hfly => ?_⟩
      · rw [mountEnds_of_automatic (u := unformattedNow (stampsJoined s n bs)) howner] at hexec
        exact endsIn_of_conclude hexec nofun (bytesKept_of_flash rfl _)
      · rw [mountEnds_of_command (u := unformattedNow (stampsJoined s n bs)) howner hfly] at hexec
        exact endsIn_of_conclude hexec nofun (bytesKept_of_flash rfl _)
  · intro s r i p len rr n more hperf hreq hst htodo hcursor hrr hn c gone goesOn
    have hexec := exec_mountRecordReadEnd hperf hreq hrr hn
    have hne : s.store.st ≠ .mounted := fun hm => nomatch hst.symm.trans hm
    refine ⟨fun hblank hrec hattempts hp => ?_, fun hgood => ⟨c.judgedNext i rr, judged_judgedNext hcursor hgood, ?_, ?_⟩⟩
    · subst hcursor
      rw [recordRead_again (u := gone) hblank hrec hattempts,
        scanNext_reads (u := gone.setScan { gone.store.scan with attempts := 1 }) htodo hp rfl] at hexec
      exact endsIn_of_conclude hexec hne (bytesKept_of_flash rfl _)
    all_goals subst hcursor
    · intro hlt
      rw [recordRead_judged (u := gone) hgood, scanNext_reads (u := gone.setScan (gone.store.scan.judgedNext i rr))
        ((judgedNext_toScan c).trans htodo) hlt rfl] at hexec
      exact endsIn_of_conclude hexec hne (bytesKept_of_flash rfl _)
    · intro j rest hmore hge
      rw [recordRead_judged (u := gone) hgood, scanNext_next
        (u := gone.setScan (gone.store.scan.judgedNext i rr)) (j := j) (rest := rest) ((judgedNext_toScan c).trans (hmore ▸ htodo)) hge rfl] at hexec
      rw [hmore]
      exact endsIn_of_conclude hexec hne (bytesKept_of_flash rfl _)

end Sys2Proof.Machine
end

section
/-! SUPPORT. RESOLVE: the sectors that retire, are ended, remain or are being reclaimed, the records that are committed,
and the one taken for each key (R125–R128). -/

namespace Sys2Proof.Machine

set_option Elab.async false

section Resolve
variable {u : State} {i : SectorIx} {r : ScanRec}

/-! ### Sectors and records -/

theorem mem_allSectors (i : SectorIx) : i ∈ allSectors := List.mem_finRange i

theorem mem_retired : i ∈ u.resolve.retired ↔ retiredNow u i := by
  change i ∈ u.retiredByLog u.store.scan.recs ↔ _
  unfold State.retiredByLog State.retires retiredNow
  rw [List.mem_filter, List.any_eq_true, and_iff_right (mem_allSectors i)]
  simp only [Bool.and_eq_true, Bool.or_eq_true, decide_eq_true_iff, Bool.not_eq_true', ← Bool.not_eq_true, isOpened_iff,
    and_assoc]

/-- The opened sectors that R125 leaves. -/
def keptSectors (u : State) : List SectorIx :=
  (allSectors.filter u.isOpened).filter fun i => !u.resolve.retired.contains i

theorem not_contains_iff {l : List SectorIx} {p : SectorIx → Prop} (h : ∀ j, j ∈ l ↔ p j) :
    (!l.contains i) = true ↔ ¬ p i := by
  rw [Bool.not_eq_true', ← Bool.not_eq_true, List.contains_iff_mem, h]

theorem mem_keptSectors : i ∈ keptSectors u ↔ keptNow u i := by
  unfold keptSectors
  rw [List.mem_filter, List.mem_filter, isOpened_iff, and_iff_right (mem_allSectors i),
    not_contains_iff fun _ => mem_retired]

theorem mem_recsIn {l : List SectorIx} {recs : List ScanRec} : r ∈ recsIn l recs ↔ r ∈ recs ∧ r.loc.sector ∈ l := by
  unfold recsIn
  rw [List.mem_filter, List.contains_iff_mem]

theorem mem_notRetired : r ∈ u.resolve.notRetired ↔ r ∈ u.store.scan.recs ∧ keptNow u r.loc.sector := by
  change r ∈ recsIn (keptSectors u) u.store.scan.recs ↔ _
  rw [mem_recsIn, mem_keptSectors]

theorem mem_ended : i ∈ u.resolve.ended ↔ endedNow u i := by
  change i ∈ (keptSectors u).filter (u.endedByLog u.resolve.notRetired) ↔ _
  unfold State.endedByLog endedNow marked
  rw [List.mem_filter, mem_keptSectors, List.any_eq_true]
  simp only [Bool.and_eq_true, decide_eq_true_iff, mem_notRetired, and_assoc]

theorem mem_remaining : i ∈ u.resolve.remaining ↔ remains u i := by
  change i ∈ (keptSectors u).filter (fun i => !u.resolve.ended.contains i) ↔ _
  rw [List.mem_filter, mem_keptSectors, not_contains_iff fun _ => mem_ended]

/-- The records of the sectors that remain. -/
def remainingRecs (u : State) : List ScanRec :=
  recsIn u.resolve.remaining u.resolve.notRetired

theorem mem_remainingRecs : r ∈ remainingRecs u ↔ r ∈ u.store.scan.recs ∧ remains u r.loc.sector := by
  unfold remainingRecs
  rw [mem_recsIn, mem_notRetired, mem_remaining]
  exact ⟨fun ⟨⟨hr, _⟩, hrem⟩ => ⟨hr, hrem⟩, fun ⟨hr, hrem⟩ => ⟨⟨hr, hrem.1⟩, hrem⟩⟩

theorem mem_reclaiming : i ∈ u.resolve.reclaiming ↔ begunNow u i := by
  change i ∈ u.resolve.remaining.filter (u.begunByLog (remainingRecs u)) ↔ _
  unfold State.begunByLog begunNow marked
  rw [List.mem_filter, mem_remaining, List.any_eq_true]
  simp only [Bool.and_eq_true, decide_eq_true_iff, Bool.not_eq_true', ← Bool.not_eq_true, List.any_eq_true,
    mem_remainingRecs, and_assoc]

/-- The VALUE and TOMBSTONE records of the sectors that remain (R127). -/
def dataRecs (u : State) : List ScanRec :=
  (remainingRecs u).filter ScanRec.isData

theorem mem_dataRecs : r ∈ dataRecs u ↔ r ∈ u.store.scan.recs ∧ dataNow u r := by
  unfold dataRecs ScanRec.isData dataNow
  rw [List.mem_filter, mem_remainingRecs, Bool.or_eq_true, decide_eq_true_iff, decide_eq_true_iff, and_assoc,
    and_comm (a := remains u r.loc.sector)]

theorem validatedBy_iff : (r.solo || validatedBy (remainingRecs u) r) = true ↔ r.solo = true ∨
    ∃ c ∈ u.store.scan.recs, c.kind = .commit ∧ remains u c.loc.sector ∧ c.txn = r.txn ∧ r.seq < c.seq ∧
      c.seq ≤ r.seq + c.operand := by
  unfold validatedBy
  rw [Bool.or_eq_true, List.any_eq_true]
  refine or_congr_right (exists_congr fun c => ?_)
  rw [mem_remainingRecs]
  simp only [Bool.and_eq_true, decide_eq_true_iff]
  exact ⟨fun ⟨⟨hc, hrem⟩, ⟨⟨hkind, htxn⟩, hlt⟩, hle⟩ => ⟨hc, hkind, hrem, htxn, hlt, hle⟩,
    fun ⟨hc, hkind, hrem, htxn, hlt, hle⟩ => ⟨⟨hc, hrem⟩, ⟨⟨hkind, htxn⟩, hlt⟩, hle⟩⟩

theorem resolve_committed : u.resolve.committed =
    (dataRecs u).filter (fun r => r.solo || validatedBy (remainingRecs u) r) := rfl

theorem mem_committedRecs : r ∈ u.resolve.committed ↔ r ∈ u.store.scan.recs ∧ committedNow u r := by
  rw [resolve_committed, List.mem_filter, mem_dataRecs, validatedBy_iff, and_assoc]

theorem resolve_repair : u.resolve.repair = true ↔ (∃ i, endedNow u i) ∨ (∃ i, begunNow u i) ∨
    ∃ r ∈ u.store.scan.recs, dataNow u r ∧ ¬ committedNow u r := by
  have hsome {l : List SectorIx} {p : SectorIx → Prop} (h : ∀ j, j ∈ l ↔ p j) : (!l.isEmpty) = true ↔ ∃ j, p j := by
    rw [Bool.not_eq_true', List.isEmpty_eq_false_iff_exists_mem]
    simp only [h]
  have horphan : u.resolve.committed.length < (dataRecs u).length ↔
      ∃ r ∈ u.store.scan.recs, dataNow u r ∧ ¬ committedNow u r := by
    rw [resolve_committed, List.length_filter_lt_length_iff_exists]
    refine exists_congr fun x => ?_
    rw [mem_dataRecs, Bool.not_eq_true, ← Bool.not_eq_true, validatedBy_iff, and_assoc]
    exact and_congr_right fun _ => and_congr_right fun hdata => not_congr (and_iff_right hdata).symm
  have hfield : u.resolve.repair = (!u.resolve.ended.isEmpty || !u.resolve.reclaiming.isEmpty ||
      decide (u.resolve.committed.length < (dataRecs u).length)) := rfl
  rw [hfield, Bool.or_eq_true, Bool.or_eq_true, decide_eq_true_iff, hsome fun _ => mem_ended, hsome fun _ => mem_reclaiming,
    horphan, or_assoc]

end Resolve

/-! ### One record taken before another -/

/-- Where a record stands in the order of R15: by sequence, then by the age of its sector, then by its line. -/
def rank (u : State) (r : ScanRec) : ℕ ×ₗ ℕ ×ₗ ℕ :=
  toLex (r.seq, toLex (age u r.loc.sector, r.loc.line))

section Order
variable {u : State} {a b c : ScanRec}

theorem takenBefore_iff_rank : takenBefore u a b ↔ rank u b < rank u a := by
  have hsector : a.loc.sector = b.loc.sector ↔ age u b.loc.sector = age u a.loc.sector :=
    ⟨fun h => by rw [h], fun h => (age_injective h).symm⟩
  unfold takenBefore rank
  rw [Prod.Lex.toLex_lt_toLex, Prod.Lex.toLex_lt_toLex, earlier_iff_age, hsector, eq_comm (a := a.seq)]

theorem preferred_iff : u.preferred a b = true ↔ rank u b < rank u a := by
  rw [← takenBefore_iff_rank]
  unfold State.preferred takenBefore
  simp only [Bool.or_eq_true, Bool.and_eq_true, decide_eq_true_iff, older_iff]

theorem loc_of_rank (h : rank u a = rank u b) : a.loc = b.loc := by
  unfold rank at h
  obtain ⟨-, hrest⟩ := Prod.mk.inj (toLex_inj.mp h)
  obtain ⟨hage, hline⟩ := Prod.mk.inj (toLex_inj.mp hrest)
  have hsector := age_injective hage
  cases ha : a.loc
  cases hb : b.loc
  rw [ha, hb] at hsector hline
  exact congr (congrArg Loc.mk hsector) hline

end Order

/-! ### The best of a list -/

section Best
variable {α β : Type} [LinearOrder β] {better : α → α → Bool} {f : α → β}

/-- The one chosen by a number is nowhere below. -/
theorem bestOf_highest (hbetter : ∀ a b, better a b = true ↔ f b < f a) {l : List α} {v : α}
    (h : bestOf better l = some v) : ∀ j ∈ l, f j ≤ f v := by
  induction l generalizing v with
  | nil => exact nomatch h
  | cons x rest ih =>
    unfold bestOf at h
    cases hy : bestOf better rest with
    | none =>
      rw [hy] at h
      rw [bestOf_eq_none.mp hy, ← Option.some.inj h]
      exact fun j hj => le_of_eq (congrArg f (List.mem_singleton.mp hj))
    | some y =>
      rw [hy] at h
      dsimp only at h
      have hrest := ih hy
      split at h
      · rename_i hwins
        rw [← Option.some.inj h]
        exact List.forall_mem_cons.mpr ⟨((hbetter y x).mp hwins).le, hrest⟩
      · rename_i hwins
        have hle : f y ≤ f x := not_lt.mp fun hlt => hwins ((hbetter y x).mpr hlt)
        rw [← Option.some.inj h]
        exact List.forall_mem_cons.mpr ⟨le_rfl, fun j hj => (hrest j hj).trans hle⟩

/-- Where no two stand alike, it is the one above all others. -/
theorem bestOf_eq_some_iff (hbetter : ∀ a b, better a b = true ↔ f b < f a) {l : List α}
    (hinj : ∀ a ∈ l, ∀ b ∈ l, f a = f b → a = b) {v : α} :
    bestOf better l = some v ↔ v ∈ l ∧ ∀ j ∈ l, j = v ∨ f j < f v := by
  refine ⟨fun h => ?_, fun ⟨hv, hbest⟩ => bestOf_eq_some hv fun j hj hne => ?_⟩
  · have hv := bestOf_mem h
    refine ⟨hv, fun j hj => ?_⟩
    rcases (bestOf_highest hbetter h j hj).lt_or_eq with hlt | heq
    · exact .inr hlt
    · exact .inl (hinj j hj v hv heq)
  · have hlt := (hbest j hj).resolve_left hne
    exact ⟨(hbetter v j).mpr hlt, Bool.eq_false_iff.mpr fun h => absurd ((hbetter j v).mp h) hlt.asymm⟩

end Best

/-! ### The record taken for each key -/

section Choose
variable {u : State} {l : List ScanRec} {r x : ScanRec}

/-- What choosing once more leaves: the record itself where it is preferred, and the others where it is not (R128). -/
theorem choose_only (h : l.Pairwise (fun a b => a.key < b.key)) (hx : x ∈ u.choose l r) :
    (x = r ∧ ∀ y ∈ l, y.key = r.key → u.preferred r y = true) ∨
      (x ∈ l ∧ (x.key = r.key → u.preferred r x = false)) := by
  induction l with
  | nil => exact .inl ⟨List.mem_singleton.mp hx, nofun⟩
  | cons y rest ih =>
    obtain ⟨hy, hrest⟩ := List.pairwise_cons.mp h
    have above {z : ScanRec} (hz : z ∈ rest) (hle : r.key ≤ y.key) : z.key ≠ r.key := fun he =>
      absurd (hy z hz) (by rw [he]; exact BitVec.not_lt.mpr hle)
    rw [State.choose] at hx
    split at hx
    · rename_i hlt
      have hne : y.key ≠ r.key := fun he => absurd hlt (by rw [he]; exact BitVec.lt_irrefl _)
      rcases List.mem_cons.mp hx with rfl | hx
      · exact .inr ⟨List.mem_cons_self .., fun he => absurd he hne⟩
      · rcases ih hrest hx with ⟨rfl, hall⟩ | ⟨hmem, hpref⟩
        · exact .inl ⟨rfl, List.forall_mem_cons.mpr ⟨fun he => absurd he hne, hall⟩⟩
        · exact .inr ⟨List.mem_cons_of_mem _ hmem, hpref⟩
    · split at hx
      · rename_i hkey
        have hle : r.key ≤ y.key := BitVec.le_of_eq hkey.symm
        split at hx
        · rename_i hpref
          rcases List.mem_cons.mp hx with rfl | hx
          · exact .inl ⟨rfl, List.forall_mem_cons.mpr ⟨fun _ => hpref, fun z hz he => absurd he (above hz hle)⟩⟩
          · exact .inr ⟨List.mem_cons_of_mem _ hx, fun he => absurd he (above hx hle)⟩
        · rename_i hpref
          rcases List.mem_cons.mp hx with rfl | hx
          · exact .inr ⟨List.mem_cons_self .., fun _ => Bool.eq_false_iff.mpr hpref⟩
          · exact .inr ⟨List.mem_cons_of_mem _ hx, fun he => absurd he (above hx hle)⟩
      · rename_i hnlt hne
        have hle : r.key ≤ y.key := BitVec.not_lt.mp hnlt
        rcases List.mem_cons.mp hx with rfl | hx
        · exact .inl ⟨rfl, List.forall_mem_cons.mpr ⟨fun he => absurd he hne, fun z hz he => absurd he (above hz hle)⟩⟩
        · rcases List.mem_cons.mp hx with rfl | hx
          · exact .inr ⟨List.mem_cons_self .., fun he => absurd he hne⟩
          · exact .inr ⟨List.mem_cons_of_mem _ hx, fun he => absurd he (above hx hle)⟩

/-- Every key that has been met keeps a record (R128). -/
theorem choose_covers (u : State) (l : List ScanRec) (r : ScanRec) :
    ∀ y ∈ r :: l, ∃ x ∈ u.choose l r, x.key = y.key := by
  induction l with
  | nil => exact fun y hy => ⟨r, List.mem_singleton.mpr rfl, by rw [List.mem_singleton.mp hy]⟩
  | cons z rest ih =>
    obtain ⟨hr, hrest⟩ := List.forall_mem_cons.mp ih
    rw [State.choose]
    split
    · have later {k : Key} : (∃ x ∈ u.choose rest r, x.key = k) → ∃ x ∈ z :: u.choose rest r, x.key = k :=
        fun ⟨x, hx, he⟩ => ⟨x, List.mem_cons_of_mem _ hx, he⟩
      exact List.forall_mem_cons.mpr ⟨later hr, List.forall_mem_cons.mpr
        ⟨⟨z, List.mem_cons_self .., rfl⟩, fun y hy => later (hrest y hy)⟩⟩
    · split
      · rename_i hkey
        split
        · exact List.forall_mem_cons.mpr ⟨⟨r, List.mem_cons_self .., rfl⟩, List.forall_mem_cons.mpr
            ⟨⟨r, List.mem_cons_self .., hkey.symm⟩, fun y hy => ⟨y, List.mem_cons_of_mem _ hy, rfl⟩⟩⟩
        · exact List.forall_mem_cons.mpr ⟨⟨z, List.mem_cons_self .., hkey⟩, fun y hy => ⟨y, hy, rfl⟩⟩
      · exact fun y hy => ⟨y, hy, rfl⟩

/-- A list of chosen records over those met so far: in key order, one for each key, none before it (R128). -/
structure Chosen (u : State) (met : ScanRec → Prop) (l : List ScanRec) : Prop where
  rises : l.Pairwise (fun a b => a.key < b.key)
  highest : ∀ x ∈ l, met x ∧ ∀ y, met y → y.key = x.key → rank u y ≤ rank u x
  covers : ∀ y, met y → ∃ x ∈ l, x.key = y.key

theorem Chosen.choose {met : ScanRec → Prop} (h : Chosen u met l) (r : ScanRec) :
    Chosen u (fun x => met x ∨ x = r) (u.choose l r) where
  rises := pairwise_choose u r h.rises
  highest := fun x hx => by
    rcases choose_only h.rises hx with ⟨rfl, hpref⟩ | ⟨hmem, hpref⟩
    · refine ⟨.inr rfl, fun y hy hkey => ?_⟩
      rcases hy with hy | rfl
      · obtain ⟨z, hz, hzkey⟩ := h.covers y hy
        have hrz := preferred_iff.mp (hpref z hz (hzkey.trans hkey))
        exact ((h.highest z hz).2 y hy hzkey.symm).trans hrz.le
      · exact le_rfl
    · obtain ⟨hmet, hhigh⟩ := h.highest x hmem
      refine ⟨.inl hmet, fun y hy hkey => ?_⟩
      rcases hy with hy | rfl
      · exact hhigh y hy hkey
      · exact not_lt.mp fun hlt => nomatch (hpref hkey.symm).symm.trans (preferred_iff.mpr hlt)
  covers := fun y hy => by
    obtain ⟨hr, hl⟩ := List.forall_mem_cons.mp (choose_covers u l r)
    rcases hy with hy | rfl
    · obtain ⟨z, hz, hzkey⟩ := h.covers y hy
      obtain ⟨x, hx, hxkey⟩ := hl z hz
      exact ⟨x, hx, hxkey.trans hzkey⟩
    · exact hr

theorem Chosen.foldl {met : ScanRec → Prop} (h : Chosen u met l) (recs : List ScanRec) :
    Chosen u (fun x => met x ∨ x ∈ recs) (recs.foldl u.choose l) := by
  induction recs generalizing met l with
  | nil =>
    have hmet : (fun x => met x ∨ x ∈ ([] : List ScanRec)) = met := funext fun x => by simp
    rw [hmet]
    exact h
  | cons r rest ih =>
    have hmet : (fun x => met x ∨ x ∈ r :: rest) = fun x => (met x ∨ x = r) ∨ x ∈ rest := funext fun x => by
      rw [List.mem_cons, or_assoc]
    rw [hmet]
    exact ih (h.choose r)

/-- The chosen records of a list without two at one place: for each key the one taken before the others (R128). -/
theorem mem_foldl_choose {recs : List ScanRec} (hd : ∀ x ∈ recs, ∀ y ∈ recs, x.loc = y.loc → x = y) :
    x ∈ recs.foldl u.choose [] ↔
      x ∈ recs ∧ ∀ y ∈ recs, y.key = x.key → y = x ∨ takenBefore u x y := by
  have hnil : Chosen u (fun _ => False) [] := ⟨List.Pairwise.nil, nofun, nofun⟩
  have h := hnil.foldl recs
  refine ⟨fun hx => ?_, fun ⟨hx, hfirst⟩ => ?_⟩
  · obtain ⟨hmet, hhigh⟩ := h.highest x hx
    have hxr := hmet.resolve_left id
    refine ⟨hxr, fun y hy hkey => ?_⟩
    rcases (hhigh y (.inr hy) hkey).lt_or_eq with hlt | heq
    · exact .inr (takenBefore_iff_rank.mpr hlt)
    · exact .inl (hd y hy x hxr (loc_of_rank heq))
  · obtain ⟨z, hz, hkey⟩ := h.covers x (.inr hx)
    obtain ⟨hmet, hhigh⟩ := h.highest z hz
    rcases hfirst z (hmet.resolve_left id) hkey with rfl | hbefore
    · exact hz
    · exact absurd (takenBefore_iff_rank.mp hbefore) (not_lt.mpr (hhigh x (.inr hx) hkey.symm))

end Choose

end Sys2Proof.Machine
end

section
/-! SUPPORT. BUILD, LOAD and OPEN: what a mount makes of the records it has resolved (R125, R128–R131). -/

namespace Sys2Proof.Machine

set_option Elab.async false

section Build
variable {u : State} {b : MountBuild}

/-! ### The directory -/

theorem builds_rec_of_rank (h : Builds u b) {x y : ScanRec} (hx : x ∈ u.store.scan.recs) (hy : y ∈ u.store.scan.recs)
    (hrank : rank u x = rank u y) : x = y := h.distinct.1 x hx y hy (loc_of_rank hrank)

/-- The entries of the chosen records, in key order (R128). -/
def allEntries (u : State) : List DirEntry :=
  (u.resolve.committed.foldl u.choose []).map (u.entryOf u.resolve.committed)

theorem entryFrom_entryOf (r : ScanRec) : entryFrom u r (u.entryOf u.resolve.committed r) := by
  have hstale : (u.entryOf u.resolve.committed r).stale = true ↔ r.kind = .tombstone ∧ ∃ x ∈ u.store.scan.recs,
      committedNow u x ∧ x.key = r.key ∧ x.seq < r.seq ∧ earlier u r.loc.sector x.loc.sector := by
    unfold State.entryOf
    dsimp only
    rw [Bool.and_eq_true, decide_eq_true_iff, List.any_eq_true]
    refine and_congr_right fun _ => exists_congr fun x => ?_
    rw [mem_committedRecs, Bool.and_eq_true, Bool.and_eq_true, decide_eq_true_iff, decide_eq_true_iff, older_iff]
    exact ⟨fun ⟨⟨hx, hcom⟩, ⟨hkey, hseq⟩, hage⟩ => ⟨hx, hcom, hkey, hseq, hage⟩,
      fun ⟨hx, hcom, hkey, hseq, hage⟩ => ⟨⟨hx, hcom⟩, ⟨hkey, hseq⟩, hage⟩⟩
  exact ⟨rfl, rfl, rfl, rfl, rfl, rfl, hstale⟩

theorem entryFrom_unique {r : ScanRec} {e e' : DirEntry} (h : entryFrom u r e) (h' : entryFrom u r e') : e = e' := by
  obtain ⟨hkey, hpresent, hloc, hlines, hlength, hseq, hstale⟩ := h
  obtain ⟨hkey', hpresent', hloc', hlines', hlength', hseq', hstale'⟩ := h'
  have hmark : e.stale = e'.stale := Bool.eq_iff_iff.mpr (hstale.trans hstale'.symm)
  cases e
  cases e'
  simp only at *
  simp only [hkey, hkey', hpresent, hpresent', hloc, hloc', hlines, hlines', hlength, hlength', hseq, hseq', hmark]

theorem builds_mem_chosen (h : Builds u b) {r : ScanRec} :
    r ∈ u.resolve.committed.foldl u.choose [] ↔ r ∈ u.store.scan.recs ∧ chosenNow u r := by
  rw [mem_foldl_choose fun x hx y hy => h.distinct.1 x (mem_committedRecs.mp hx).1 y (mem_committedRecs.mp hy).1,
    mem_committedRecs, and_assoc]
  refine and_congr_right fun _ => and_congr_right fun _ => forall_congr' fun x => ?_
  rw [mem_committedRecs]
  exact ⟨fun hall hx hcom => hall ⟨hx, hcom⟩, fun hall hx => hall hx.1 hx.2⟩

/-- The entries of BUILD are those of the statement (R128). -/
theorem builds_allEntries_eq (h : Builds u b) : allEntries u = b.found := by
  obtain ⟨hsorted, hfrom, hto⟩ := h.found
  obtain ⟨hrises, -⟩ := foldl_choose u u.resolve.committed [] List.Pairwise.nil
  refine eq_of_rising (R := fun a b => a.key < b.key) (fun _ _ hab => BitVec.lt_asymm hab) (List.pairwise_map.mpr hrises)
    (dirSorted_iff.mp hsorted) fun e => ⟨fun he => ?_, fun he => ?_⟩
  · obtain ⟨r, hr, rfl⟩ := List.mem_map.mp he
    obtain ⟨hrec, hchosen⟩ := (builds_mem_chosen h).mp hr
    obtain ⟨e', he', hentry⟩ := hto r hrec hchosen
    rw [entryFrom_unique (entryFrom_entryOf r) hentry]
    exact he'
  · obtain ⟨r, hrec, hchosen, hentry⟩ := hfrom e he
    refine List.mem_map.mpr ⟨r, (builds_mem_chosen h).mpr ⟨hrec, hchosen⟩, ?_⟩
    exact entryFrom_unique (entryFrom_entryOf r) hentry

theorem key_unique {d : List DirEntry} (h : dirSorted d = true) {e e' : DirEntry} (he : e ∈ d) (he' : e' ∈ d)
    (hkey : e.key = e'.key) : e = e' := by
  induction d with
  | nil => exact absurd he List.not_mem_nil
  | cons x rest ih =>
    obtain ⟨habove, hrest⟩ := dirSorted_cons.mp h
    have apart {y : DirEntry} (hy : y ∈ rest) : x.key ≠ y.key := fun heq =>
      absurd (habove y hy) (by rw [heq]; exact BitVec.lt_irrefl _)
    rcases List.mem_cons.mp he with rfl | hin <;> rcases List.mem_cons.mp he' with rfl | hin'
    · rfl
    · exact absurd hkey (apart hin')
    · exact absurd hkey.symm (apart hin)
    · exact ih hrest hin hin'

/-- The directory within its capacity (R59, R128). -/
theorem withinCapacity_eq {d : List DirEntry} (h : dirSorted d = true) : withinCapacity d =
    if d.length ≤ 1024 then d
    else if ∃ e ∈ d, e.key = 0xFF01#16 then
      (d.filter (fun e => decide (e.key ≠ 0xFF01#16))).take 1023 ++ d.filter (fun e => decide (e.key = 0xFF01#16))
    else d.take 1024 := by
  unfold withinCapacity
  cases hfind : dirFind d Config.settingsKey with
  | none =>
    have hno : ¬ ∃ e ∈ d, e.key = 0xFF01#16 := fun ⟨e, he, hkey⟩ => dirFind_none_iff.mp hfind e he hkey
    rw [if_neg hno]
    rfl
  | some e =>
    obtain ⟨he, hkey⟩ := dirFind_some hfind
    have hone : d.filter (fun e => decide (e.key = 0xFF01#16)) = [e] := by
      refine eq_of_rising (R := fun a b => a.key < b.key) (fun _ _ hab => BitVec.lt_asymm hab)
        ((dirSorted_iff.mp h).filter _) (List.pairwise_singleton _ _) fun x => ?_
      rw [List.mem_filter, decide_eq_true_iff, List.mem_singleton]
      exact ⟨fun ⟨hx, hxkey⟩ => key_unique h hx he (hxkey.trans hkey.symm), fun hx => hx ▸ ⟨he, hkey⟩⟩
    have hyes : ∃ e ∈ d, e.key = 0xFF01#16 := ⟨e, he, hkey⟩
    rw [if_pos hyes, hone]
    rfl

theorem builds_dir_eq (h : Builds u b) : withinCapacity (allEntries u) = b.dir := by
  rw [builds_allEntries_eq h, withinCapacity_eq h.found.1, h.dir]

theorem builds_dir_sub (h : Builds u b) {e : DirEntry} (he : e ∈ b.dir) : e ∈ b.found := by
  rw [h.dir] at he
  split at he
  · exact he
  · split at he
    · rcases List.mem_append.mp he with he | he
      · exact (List.mem_filter.mp (List.mem_of_mem_take he)).1
      · exact (List.mem_filter.mp he).1
    · exact List.mem_of_mem_take he

/-! ### The sectors -/

theorem builds_retireChoice_eq (h : Builds u b) {i : SectorIx} (hi : retiredNow u i) :
    u.retireChoice i u.resolve.notRetired = (b.sectors.get i).retireLoc := by
  have hmem (r : ScanRec) : r ∈ u.resolve.notRetired.filter
      (fun r => decide (r.kind = .retire) && decide (r.operand = i.val)) ↔
        r ∈ u.store.scan.recs ∧ namesRetired u i r := by
    rw [List.mem_filter, mem_notRetired, Bool.and_eq_true, decide_eq_true_iff, decide_eq_true_iff]
    exact ⟨fun ⟨⟨hr, hkept⟩, hkind, hop⟩ => ⟨hr, hkind, hop, hkept⟩,
      fun ⟨hr, hkind, hop, hkept⟩ => ⟨⟨hr, hkept⟩, hkind, hop⟩⟩
  change (bestOf u.preferred _).map ScanRec.loc = _
  obtain ⟨-, ⟨hnone, hno⟩ | ⟨r, hr, hnames, hloc, hbest⟩⟩ := h.retired i hi
  · have hnil : u.resolve.notRetired.filter
        (fun r => decide (r.kind = .retire) && decide (r.operand = i.val)) = [] :=
      List.eq_nil_iff_forall_not_mem.mpr fun r hr => hno r ((hmem r).mp hr).1 ((hmem r).mp hr).2
    rw [hnil, hnone]
    rfl
  · have hchoice : bestOf u.preferred (u.resolve.notRetired.filter
        (fun r => decide (r.kind = .retire) && decide (r.operand = i.val))) = some r := by
      refine (bestOf_eq_some_iff (f := rank u) (fun _ _ => preferred_iff) fun x hx y hy hrank =>
        builds_rec_of_rank h ((hmem x).mp hx).1 ((hmem y).mp hy).1 hrank).mpr ⟨(hmem r).mpr ⟨hr, hnames⟩, fun x hx => ?_⟩
      obtain ⟨hx, hxnames⟩ := (hmem x).mp hx
      exact (hbest x hx hxnames).imp_right takenBefore_iff_rank.mp
    rw [hchoice, hloc]
    rfl

theorem builds_active_eq (h : Builds u b) :
    u.newestOf (u.resolve.remaining.filter fun i => !u.resolve.reclaiming.contains i) = b.active := by
  obtain ⟨hsome, hnone⟩ := h.active
  have hmem (i : SectorIx) : i ∈ u.resolve.remaining.filter (fun i => !u.resolve.reclaiming.contains i) ↔
      remains u i ∧ ¬ begunNow u i := by
    rw [List.mem_filter, mem_remaining, not_contains_iff fun _ => mem_reclaiming]
  unfold State.newestOf
  cases ha : b.active with
  | none =>
    rw [bestOf_eq_none]
    exact List.eq_nil_iff_forall_not_mem.mpr fun i hi => ((hmem i).mp hi).2 (hnone ha i ((hmem i).mp hi).1)
  | some k =>
    obtain ⟨hrem, hnot, hbest⟩ := hsome k ha
    refine (bestOf_eq_some_iff (f := age u) (fun _ _ => older_iff.trans earlier_iff_age) fun _ _ _ _ =>
      age_injective).mpr ⟨(hmem k).mpr ⟨hrem, hnot⟩, fun j hj => ?_⟩
    obtain ⟨hj, hjnot⟩ := (hmem j).mp hj
    exact (hbest j hj hjnot).imp_right earlier_iff_age.mp

theorem keptNow_cases (i : SectorIx) :
    retiredNow u i ∨ endedNow u i ∨ remains u i ∨ (¬ openedIn u i ∧ ¬ retiredNow u i) := by
  by_cases hret : retiredNow u i
  · exact .inl hret
  · by_cases hopen : openedIn u i
    · by_cases hend : endedNow u i
      · exact .inr (.inl hend)
      · exact .inr (.inr (.inl ⟨⟨hopen, hret⟩, hend⟩))
    · exact .inr (.inr (.inr ⟨hopen, hret⟩))

/-- A sector is RETIRED after BUILD just when R125 makes it so. -/
theorem builds_retired_iff (h : Builds u b) (i : SectorIx) : (b.sectors.get i).st = .retired ↔ retiredNow u i := by
  rcases keptNow_cases (u := u) i with hret | hend | hrem | ⟨hopen, hret⟩
  · rw [(h.retired i hret).1]
    exact iff_of_true rfl hret
  · rw [h.ended i hend]
    exact iff_of_false nofun hend.1.2
  · refine iff_of_false ?_ hrem.1.2
    obtain ⟨hactive, hsealed, hreclaiming⟩ := h.remaining i hrem
    by_cases hbegun : begunNow u i
    · rw [hreclaiming hbegun]
      exact nofun
    · by_cases ha : b.active = some i
      · rw [hactive ha]
        exact nofun
      · rw [hsealed ha hbegun]
        exact nofun
  · rw [h.others i hopen hret]
    refine iff_of_false (fun hst => ?_) hret
    rcases h.fresh i with hf | hf <;> exact nomatch hf.symm.trans hst

/-- The RETIRE locations that BUILD counts as live lines (R33). -/
theorem builds_liveLines_eq (h : Builds u b) (i : SectorIx) :
    liveLinesOf b.dir (u.resolve.retired.filterMap fun j => u.retireChoice j u.resolve.notRetired) i =
      liveNow b.dir b.sectors i := by
  unfold liveLinesOf liveNow
  refine congrArg (_ + ·) ?_
  change ((allSectors.filter fun j => u.store.scan.recs.any (u.retires j)).filterMap _ |>.filter _).length = _
  rw [← List.countP_eq_length_filter, List.countP_filterMap, List.countP_filter, ← List.countP_eq_length_filter]
  refine List.countP_congr fun j _ => ?_
  have hretired : u.store.scan.recs.any (u.retires j) = true ↔ (b.sectors.get j).st = .retired := by
    rw [builds_retired_iff h, ← mem_retired]
    exact ((List.mem_filter (p := fun j => u.store.scan.recs.any (u.retires j))).trans
      (and_iff_right (mem_allSectors j))).symm
  rw [Bool.and_eq_true, Bool.and_eq_true, hretired, decide_eq_true_iff, and_comm]
  refine and_congr_right fun hst => ?_
  rw [builds_retireChoice_eq h ((builds_retired_iff h j).mp hst)]
  cases (b.sectors.get j).retireLoc with
  | none => simp
  | some l => simp

/-- Every entry is the one the statement gives (R129). -/
theorem builds_builtEntry_eq (h : Builds u b) (i : SectorIx) : u.builtEntry u.resolve b.dir
    (u.resolve.retired.filterMap fun j => u.retireChoice j u.resolve.notRetired) b.active i = b.sectors.get i := by
  unfold State.builtEntry
  dsimp only
  rw [builds_liveLines_eq h]
  rcases keptNow_cases (u := u) i with hret | hend | hrem | ⟨hopen, hret⟩
  · rw [if_pos (List.contains_iff_mem.mpr (mem_retired.mpr hret)), builds_retireChoice_eq h hret]
    exact ((h.retired i hret).1).symm
  · rw [if_neg fun hc => hend.1.2 (mem_retired.mp (List.contains_iff_mem.mp hc)),
      if_pos (List.contains_iff_mem.mpr (mem_ended.mpr hend)), h.ended i hend]
    rfl
  · rw [if_neg fun hc => hrem.1.2 (mem_retired.mp (List.contains_iff_mem.mp hc)),
      if_neg fun hc => hrem.2 (mem_ended.mp (List.contains_iff_mem.mp hc)),
      if_pos (List.contains_iff_mem.mpr (mem_remaining.mpr hrem))]
    obtain ⟨hactive, hsealed, hreclaiming⟩ := h.remaining i hrem
    by_cases ha : b.active = some i
    · rw [if_pos ha, hactive ha]
    · rw [if_neg ha]
      by_cases hbegun : begunNow u i
      · rw [if_pos (List.contains_iff_mem.mpr (mem_reclaiming.mpr hbegun)), hreclaiming hbegun]
      · rw [if_neg fun hc => hbegun (mem_reclaiming.mp (List.contains_iff_mem.mp hc)), hsealed ha hbegun]
  · rw [if_neg fun hc => hret (mem_retired.mp (List.contains_iff_mem.mp hc)),
      if_neg fun hc => hopen (mem_ended.mp (List.contains_iff_mem.mp hc)).1.1,
      if_neg fun hc => hopen (mem_remaining.mp (List.contains_iff_mem.mp hc)).1.1, h.others i hopen hret]

theorem builds_sectors_eq (h : Builds u b) : (Vector.ofFn fun i => u.builtEntry u.resolve b.dir
    (u.resolve.retired.filterMap fun j => u.retireChoice j u.resolve.notRetired) b.active i) = b.sectors := by
  refine Vector.ext fun i hi => ?_
  rw [Vector.getElem_ofFn]
  exact builds_builtEntry_eq h ⟨i, hi⟩

theorem builds_retired_length (h : Builds u b) : u.resolve.retired.length = countIn b.sectors .retired := by
  refine congrArg List.length (List.filter_congr fun i _ => ?_)
  rw [Bool.eq_iff_iff, decide_eq_true_iff, builds_retired_iff h, ← mem_retired]
  exact ((List.mem_filter (p := fun j => u.store.scan.recs.any (u.retires j))).trans
    (and_iff_right (mem_allSectors i))).symm

/-! ### The counters -/

theorem foldl_max_le_iff {α : Type} {f : α → Nat} {l : List α} {a c : Nat} :
    l.foldl (fun m i => max m (f i)) a ≤ c ↔ a ≤ c ∧ ∀ i ∈ l, f i ≤ c := by
  induction l generalizing a with
  | nil => exact (and_iff_left nofun).symm
  | cons x rest ih => rw [List.foldl_cons, ih, max_le_iff, List.forall_mem_cons, and_assoc]

theorem sequenceSeen_le_iff {c : Nat} : u.sequenceSeen ≤ c ↔
    (∀ r ∈ u.store.scan.recs, r.seq ≤ c) ∧ ∀ i, openedIn u i → (u.sector i).openingSeq - 1 ≤ c := by
  unfold State.sequenceSeen
  have hrecs : (u.store.scan.recs.map ScanRec.seq).foldl max 0 ≤ c ↔ ∀ r ∈ u.store.scan.recs, r.seq ≤ c := by
    rw [List.foldl_map, foldl_max_le_iff]
    exact and_iff_right (Nat.zero_le c)
  dsimp only
  rw [foldl_max_le_iff, hrecs]
  refine and_congr_right fun _ => forall_congr' fun i => ?_
  rw [List.mem_filter, and_iff_right (mem_allSectors i), isOpened_iff]

theorem builds_sequence_eq (h : Builds u b) : u.sequenceSeen = b.seq := by
  obtain ⟨hrecs, hopened, hattained⟩ := h.seq
  obtain ⟨hrecs', hopened'⟩ := sequenceSeen_le_iff.mp (le_refl u.sequenceSeen)
  refine le_antisymm (sequenceSeen_le_iff.mpr ⟨hrecs, fun i hi => ?_⟩) ?_
  · have := hopened i hi
    omega
  · rcases hattained with hzero | ⟨r, hr, heq⟩ | ⟨i, hi, heq⟩
    · omega
    · rw [← heq]
      exact hrecs' r hr
    · have := hopened' i hi
      omega

theorem builds_activation_eq (h : Builds u b) : u.activationSeen = b.act := by
  obtain ⟨hopened, hattained⟩ := h.act
  have hle {c : Nat} : u.activationSeen ≤ c ↔ ∀ i, openedIn u i → (u.sector i).activation ≤ c := by
    unfold State.activationSeen
    rw [foldl_max_le_iff, and_iff_right (Nat.zero_le c)]
    refine forall_congr' fun i => ?_
    rw [List.mem_filter, and_iff_right (mem_allSectors i), isOpened_iff]
  refine le_antisymm (hle.mpr hopened) ?_
  rcases hattained with hzero | ⟨i, hi, heq⟩
  · omega
  · rw [← heq]
    exact hle.mp le_rfl i hi

theorem builds_txn_eq (h : Builds u b) : txnSeen u.store.scan.recs = b.txn := by
  unfold txnSeen
  have hmem (r : ScanRec) : r ∈ u.store.scan.recs.filter (fun r => decide (r.txn ≠ 0)) ↔
      r ∈ u.store.scan.recs ∧ r.txn ≠ 0 := by
    rw [List.mem_filter, decide_eq_true_iff]
  rcases h.txn with ⟨hzero, hnone⟩ | ⟨r, hr, htxn, hne, hbest⟩
  · have hnil : u.store.scan.recs.filter (fun r => decide (r.txn ≠ 0)) = [] :=
      List.eq_nil_iff_forall_not_mem.mpr fun r hr => ((hmem r).mp hr).2 (hnone r ((hmem r).mp hr).1)
    rw [hnil, hzero]
    rfl
  · have hrin := (hmem r).mpr ⟨hr, by rw [htxn]; exact hne⟩
    cases hw : bestOf (fun a b : ScanRec => decide (b.seq < a.seq))
        (u.store.scan.recs.filter fun r => decide (r.txn ≠ 0)) with
    | none =>
      rw [bestOf_eq_none.mp hw] at hrin
      exact absurd hrin List.not_mem_nil
    | some w =>
      obtain ⟨hwin, hwne⟩ := (hmem w).mp (bestOf_mem hw)
      have hle := bestOf_highest (f := ScanRec.seq) (fun _ _ => decide_eq_true_iff) hw r hrin
      rcases hbest w hwin hwne with hlt | ⟨-, heq⟩
      · exact absurd hle (not_le.mpr hlt)
      · exact heq

theorem builds_repair_eq (h : Builds u b) : (u.store.scan.repair || u.resolve.repair) = b.repair := by
  rw [Bool.eq_iff_iff, Bool.or_eq_true, resolve_repair, h.repair]

/-! ### The state -/

/-- The state as BUILD leaves it, with a read-only cause (R128, R129). -/
def buildLeft (u : State) (b : MountBuild) (cause : Cause) : State :=
  { u with
    dir := b.dir
    sectors := b.sectors
    lw := (built u b).lw
    store := { u.store with cause := cause, scan := { u.store.scan with repair := b.repair } } }

theorem builds_build_eq (h : Builds u b) : u.build u.resolve = buildLeft u b (builtCause b) := by
  have hall : (u.resolve.committed.foldl u.choose []).map (u.entryOf u.resolve.committed) = b.found :=
    builds_allEntries_eq h
  have hdir : withinCapacity b.found = b.dir := by rw [← builds_allEntries_eq h, builds_dir_eq h]
  unfold State.build
  dsimp only
  rw [hall, hdir, builds_active_eq h, builds_sectors_eq h, builds_sequence_eq h, builds_activation_eq h,
    builds_txn_eq h, builds_repair_eq h, builds_retired_length h]
  rfl

theorem builds_find_settings (h : Builds u b) {x : ScanSettings} (hx : x ∈ u.store.scan.settings) {l : Loc}
    (hl : x.loc = l) : u.store.scan.settings.find? (fun p => decide (p.loc = l)) = some x := by
  cases hfind : u.store.scan.settings.find? (fun p => decide (p.loc = l)) with
  | none => exact absurd (decide_eq_true hl) (List.find?_eq_none.mp hfind x hx)
  | some y =>
    have hy := List.find?_some hfind
    rw [h.distinct.2 y (List.mem_of_find?_eq_some hfind) x hx ((of_decide_eq_true hy).trans hl.symm)]

/-- LOAD (R130, R147, R170). -/
theorem builds_load_eq (h : Builds u b) (cause : Cause) : (buildLeft u b cause).load =
    { buildLeft u b cause with settings := (built u b).settings, guards := (built u b).guards } := by
  obtain ⟨hsome, hnone⟩ := h.payload
  have hentry : (buildLeft u b cause).entry Config.settingsKey = dirFind b.dir Config.settingsKey := rfl
  unfold State.load
  rw [hentry]
  cases hp : b.payload with
  | some bs =>
    obtain ⟨hknown, e, he, hkey, x, hx, hloc, rfl⟩ := hsome bs hp
    have hfind : dirFind b.dir Config.settingsKey = some e := by
      cases hd : dirFind b.dir Config.settingsKey with
      | none => exact absurd hkey (dirFind_none_iff.mp hd e he)
      | some e' =>
        obtain ⟨he', hkey'⟩ := dirFind_some hd
        rw [key_unique h.found.1 (builds_dir_sub h he') (builds_dir_sub h he) (hkey'.trans hkey.symm)]
    have hpayload : (buildLeft u b cause).store.scan.settings.find? (fun p => decide (p.loc = e.loc)) = some x :=
      builds_find_settings h hx hloc
    rw [hfind]
    dsimp only
    rw [hpayload]
    dsimp only [Option.map_some]
    rw [if_pos hknown]
    unfold built
    rw [hp]
    rfl
  | none =>
    have hdefaults : { buildLeft u b cause with settings := Settings.factory, guards := clearUnfixed u.guards } =
        { buildLeft u b cause with settings := (built u b).settings, guards := (built u b).guards } := by
      unfold built
      rw [hp]
      rfl
    rw [← hdefaults]
    cases hd : dirFind b.dir Config.settingsKey with
    | none => rfl
    | some e =>
      obtain ⟨he, hkey⟩ := dirFind_some hd
      dsimp only
      cases hs : (buildLeft u b cause).store.scan.settings.find? (fun p => decide (p.loc = e.loc)) with
      | none => rfl
      | some x =>
        have hloc := List.find?_some hs
        have hknown := hnone hp e he hkey x (List.mem_of_find?_eq_some hs) (of_decide_eq_true hloc)
        dsimp only [Option.map_some]
        rw [hknown]
        rfl

/-- The state as OPEN finds it (R131). -/
def resolved (u : State) (b : MountBuild) (cause : Cause) : State :=
  { built u b with store := { u.store with
      phase := .open_, cause := cause, scan := { u.store.scan with repair := b.repair } } }

/-- After the last record the mount ends, or opens a sector (R131). -/
theorem builds_recordsDone_eq (h : Builds u b) : u.recordsDone =
    if builtCause b = .none ∧ b.active = none then (resolved u b (builtCause b)).mountOpenNext
    else (resolved u b (builtCause b)).mountDone := by
  have hpoint : (resolved u b (builtCause b)).lw.point = none ↔ b.active = none := Option.map_eq_none_iff
  have hopen : u.recordsDone = if builtCause b = .none ∧ (resolved u b (builtCause b)).lw.point = none then
      (resolved u b (builtCause b)).mountOpenNext else (resolved u b (builtCause b)).mountDone := by
    unfold State.recordsDone
    rw [builds_build_eq h, builds_load_eq h]
    rfl
  rw [hopen]
  simp only [hpoint]

end Build

/-! ### The end of the READs -/

/-- RESOLVE, BUILD, LOAD and OPEN in the step of the last READ (R125–R131). -/
theorem resolvesIn_of_conclude {c : Instr} {s v : State} (h : exec c s = conclude (v.recordsDone, []))
    (hst : v.store.st = .mounting) (hlow : v.pins.pfailLow = false) (hm : v.arr.m = none) (hb : bytesKept s v nowhere) :
    resolvesIn c s v := by
  intro b hbuilds u cause blanks ends
  have hbar : ¬ barHolds v := not_barHolds_of_storeWork hlow (.inl hst)
  have endsWith {k : Cause} (hend : exec c s = conclude ((resolved v b k).mountDone, [])) : ends k := by
    refine ⟨fun howner => ?_, fun before tag after howner hfly => ?_⟩
    · rw [mountDone_automatic (u := resolved v b k) rfl rfl howner] at hend
      exact concludesIn_of_conclude hend (bytesKept_congr hb rfl)
    · rw [mountDone_command (u := resolved v b k) rfl rfl howner hfly] at hend
      exact concludesIn_of_conclude hend (bytesKept_congr hb rfl)
  rw [builds_recordsDone_eq hbuilds] at h
  refine ⟨fun hcond => endsWith ?_, fun hcause hactive hblank => endsWith ?_, fun k hcause hactive hk hbest => ?_⟩
  · have hnot : ¬ (builtCause b = .none ∧ b.active = none) := fun ⟨hc, ha⟩ => hcond.elim (absurd hc) (absurd ha)
    rw [if_neg hnot] at h
    exact h
  · have hnone : (resolved v b (builtCause b)).candidate = none := candidate_none.mpr hblank
    rw [if_pos ⟨hcause, hactive⟩, mountOpenNext_of_none hnone] at h
    exact h
  · have hcandidate : (resolved v b .none).candidate = some k := candidate_of_lowest hk hbest
    rw [if_pos ⟨hcause, hactive⟩, show builtCause b = .none from hcause,
      mountOpenNext_of_candidate (u := resolved v b .none) hcandidate hm hbar] at h
    exact endsIn_of_conclude h (fun hmounted => nomatch hst.symm.trans hmounted) (bytesKept_congr hb rfl)

/-- Settles O57, by the READ that is the last one. -/
theorem mountBuilds : Obligations.MountBuilds := by
  refine ⟨?_, ?_⟩
  · intro s r i p len rr n hperf hreq hst hlow htodo hcursor hrr hn hgood gone
    have hexec := exec_mountRecordReadEnd hperf hreq hrr hn
    refine ⟨s.store.scan.judgedNext i rr, judged_judgedNext hcursor hgood, fun hge => ?_⟩
    subst hcursor
    rw [recordRead_judged (u := gone) hgood, scanNext_last (u := gone.setScan (gone.store.scan.judgedNext i rr))
      ((judgedNext_toScan _).trans htodo) hge] at hexec
    exact resolvesIn_of_conclude hexec hst hlow rfl (bytesKept_of_flash rfl _)
  · intro s r i bs n generation estimate sectors repair lost hperf hreq hst hlow hbs hn hi gone read hlen hformatted hgen
      hest hhigh hsectors hlost hrepair hnone
    have hexec := exec_mountStampReadEnd hperf hreq hbs hn
    have hclosed (k : SectorIx) :
        ¬ openedIn (stampsJudged (stampsJoined s n bs) generation sectors [] repair lost) k := fun hopen =>
      nomatch (hnone _ (List.mem_of_getElem? (stampOf_eq (c := (stampsJoined s n bs).store.scan) hlen k))).symm.trans hopen
    rw [stampRead_last hi, stampsDone_of_read (u := stampsJoined s n bs) (order := [])
      ⟨hlen, hformatted, hgen, hest, hhigh, hsectors, hlost, hrepair⟩ List.Pairwise.nil
      fun k => iff_of_false List.not_mem_nil (hclosed k)] at hexec
    exact resolvesIn_of_conclude hexec hst hlow rfl (bytesKept_of_flash rfl _)

end Sys2Proof.Machine
end
